-- ==== Sys2Proof/Word.lean ====
section
/-! DEFINITION. Word: the value types of `00_scope.md` R7. -/

namespace Sys2Proof

/-- `u8`, one octet (R6, R7). -/
abbrev Byte := BitVec 8

/-- `u15`, the report number (R7). -/
abbrev Word15 := BitVec 15

/-- `u16` (R7). -/
abbrev Word16 := BitVec 16

/-- `u32` (R7). -/
abbrev Word32 := BitVec 32

/-- `bytes`: a finite sequence of `u8`, index 0 first on the wire (R6, R7). -/
abbrev Bytes := List Byte

end Sys2Proof
end

