-- ==== Sys2Proof/Machine/Constants.lean ====
section
/-! DEFINITION. Constants: every fixed parameter of `00_scope.md` R5, each named once (U11: unaudited literals, log 13). -/

namespace Sys2Proof.Machine

/-- CRC_WIDTH: width of the CRC register in bits. -/
abbrev crcWidth : Nat := 16

/-- The content of the CRC register (R21). -/
abbrev CrcWord := BitVec crcWidth

/-- CRC_POLY. -/
def crcPoly : CrcWord := 0x1021

/-- CRC_INIT. -/
def crcInitial : CrcWord := 0x1D0F

/-- ENV_PROTOCOL_ID. -/
def envProtocolId : Byte := 0x23

/-- ENV_SUB_ID. -/
def envSubId : Byte := 0x02

/-- ENV_SRC_EP. -/
def envSrcEp : Byte := 0x00

/-- ENV_DST_EP. -/
def envDstEp : Byte := 0x00

/-- ENV_HDR_LEN. -/
def envHdrLen : Nat := 7

/-- FW_CLASS. -/
def fwClass : Byte := 0x7A

/-- FW_CMD_MDGET. -/
def fwCmdMdget : Byte := 0x01

/-- FW_CMD_REQGET. -/
def fwCmdReqget : Byte := 0x03

/-- FW_CMD_UPDGET: Update Get outbound, and the command byte of an inbound chunk request. -/
def fwCmdUpdget : Byte := 0x05

/-- FW_CMD_REPORT. -/
def fwCmdReport : Byte := 0x06

/-- FW_CMD_ACTSET. -/
def fwCmdActset : Byte := 0x08

/-- REQGET_TAIL: a constant of its own, not derived from CHUNK_SIZE (R67). -/
def reqgetTail : Bytes := [0x00, 0x28, 0x00, 0x01]

/-- CHUNK_SIZE. -/
def chunkSize : Nat := 40

/-- REPORT_NUMBER_BITS: width of report_number. -/
abbrev reportNumberBits : Nat := 15

/-- A report number (R66, R74). -/
abbrev ReportNumber := BitVec reportNumberBits

/-- TAG_BRIDGE. -/
def tagBridge : Byte := 0x20

/-- TAG_NCP. -/
def tagNcp : Byte := 0x30

/-- TAG_NODE. -/
def tagNode : Byte := 0x40

/-- RT_DATA. -/
def rtData : Byte := 0x00

/-- RT_HEADER. -/
def rtHeader : Byte := 0x01

/-- REC_HDR_LEN. -/
def recHdrLen : Nat := 4

/-- REC_LEN_MAX. -/
def recLenMax : Nat := 65535

/-- PULL_REQ_LEN. -/
def pullReqLen : Nat := 3

/-- DIGEST_LEN. -/
def digestLen : Nat := 16

/-- FILE_LEN_MAX. -/
def fileLenMax : Nat := 2 ^ 32 - 1

/-- SEQ_MODULUS: sequence numbers wrap modulo this (R148). -/
def seqModulus : Nat := 256

/-- The bytes of a chunk-request trailer (R68, R75). -/
def trailerLen : Nat := 5

end Sys2Proof.Machine
end

