-- ==== Sys2Proof/Machine/Operands.lean ====
section
/-! DEFINITION. Operands: splitting and assembling fields (`30_encoding.md` R73, R74, `20_memory.md` R41). -/

namespace Sys2Proof.Machine

/-- `hi8(v) = v[15:8]` (R7). -/
def hi8 (v : Word16) : Byte :=
  v.extractLsb' 8 8

/-- `lo8(v) = v[7:0]` (R7). -/
def lo8 (v : Word16) : Byte :=
  v.extractLsb' 0 8

/-- A big-endian 16-bit field: `v[15:8]`, then `v[7:0]` (R73). -/
def be16 (v : Word16) : Bytes :=
  [hi8 v, lo8 v]

/-- A little-endian 16-bit field: `v[7:0]`, then `v[15:8]` (R73). -/
def le16 (v : Word16) : Bytes :=
  [lo8 v, hi8 v]

/-- A little-endian 32-bit field: `v[7:0]`, `v[15:8]`, `v[23:16]`, `v[31:24]` (R73). -/
def le32 (v : Word32) : Bytes :=
  [v.extractLsb' 0 8, v.extractLsb' 8 8, v.extractLsb' 16 8, v.extractLsb' 24 8]

/-- A 32-bit operand of a command packet, most significant byte first (log 1). -/
def be32 (v : Word32) : Bytes :=
  [v.extractLsb' 24 8, v.extractLsb' 16 8, v.extractLsb' 8 8, v.extractLsb' 0 8]

/-- Decoding a big-endian 16-bit field: `first*256 + second` (R73). -/
def joinBE16 (first second : Byte) : Word16 :=
  first ++ second

/-- Decoding a little-endian 16-bit field: `first + 256*second` (R73). -/
def joinLE16 (first second : Byte) : Word16 :=
  second ++ first

/-- Decoding a 32-bit operand of a command packet (log 1). -/
def joinBE32 (b3 b2 b1 b0 : Byte) : Word32 :=
  ((b3 ++ b2 : Word16) ++ (b1 ++ b0 : Word16) : BitVec (16 + 16))

/-- A `bool` is `u1` with true = 1 (R7), here widened to a byte. -/
def boolByte (b : Bool) : Byte :=
  (BitVec.ofBool b).setWidth 8

/-- Byte 2 of an Update Report: `(n >> 8) OR (last << 7)` (R66, R74). -/
def reportByte2 (n : ReportNumber) (last : Bool) : Byte :=
  (n >>> 8).setWidth 8 ||| (boolByte last <<< 7)

/-- Byte 3 of an Update Report: `n AND 0xFF` (R66, R74). -/
def reportByte3 (n : ReportNumber) : Byte :=
  (n &&& 0xFF).setWidth 8

/-- The relay record of R69 without the checks of R121: `[tag, rtype, n AND 0xFF, n >> 8] ++ payload`. -/
def record (tag rtype : Byte) (payload : Bytes) : Bytes :=
  [tag, rtype] ++ le16 (BitVec.ofNat 16 payload.length) ++ payload

/-- The metadata of the ncp header record (R71, R125). -/
def ncpMetadata (fileSize : Word32) (digest : Bytes) : Bytes :=
  le32 fileSize ++ digest

/-- The metadata of the node header record: file_size little-endian, node_id big-endian (R71, R126). -/
def nodeMetadata (fileSize : Word32) (nodeId : Word16) (digest : Bytes) : Bytes :=
  le32 fileSize ++ be16 nodeId ++ digest

/-- `requested_length = rx[1] + 256 * rx[2]` of a pull request of 3 bytes; `rx[0]` is not read (R128). -/
def requestedLength (rx : Bytes) : Word16 :=
  joinLE16 (rx.getD 1 0) (rx.getD 2 0)

/-- `MemRead(addr, n)`: `FILE[addr : min(addr + n, N)]` (R8, R45). -/
def memRead (file : Bytes) (addr n : Nat) : Bytes :=
  (file.drop addr).take n

end Sys2Proof.Machine
end

