-- ==== Sys2Proof/Syntax.lean ====
section
/-! DEFINITION. Syntax: the 19 operations of `30_encoding.md` R61 with their typed operands. -/

namespace Sys2Proof

/-- One operation: a host command (17 of them) or an environment event (`rfPull`, `rfAbort`), with its operands in
the order of R61. -/
inductive Instr where
  /-- SYS.RESET (R180). -/
  | sysReset
  /-- CRC.INIT (R93). -/
  | crcInit
  /-- CRC.BYTE (R94). -/
  | crcByte (d : Byte)
  /-- CRC.READ (R95). -/
  | crcRead
  /-- CRC.COMPUTE (R96). -/
  | crcCompute (data : Bytes)
  /-- ENV.ENCODE (R101). -/
  | envEncode (payload : Bytes) (seq flags0 flags1 : Byte)
  /-- FW.MDGET (R103). -/
  | fwMdget
  /-- FW.REQGET (R107). -/
  | fwReqget (vendor fw ck target : Byte)
  /-- FW.UPDGET (R104). -/
  | fwUpdget (vendor fw ck : Word16)
  /-- FW.REPORT (R106). -/
  | fwReport (n : Machine.ReportNumber) (last : Bool) (chunk : Bytes)
  /-- FW.ACTSET (R105). -/
  | fwActset (vendor fw ck : Word16) (target hw : Byte)
  /-- FW.DECREQ (R108). -/
  | fwDecreq (raw : Bytes)
  /-- REC.ENCODE (R121). -/
  | recEncode (tag rtype : Byte) (payload : Bytes)
  /-- REQ.DECODE (R122). -/
  | reqDecode (rx : Bytes)
  /-- RF.START.BRIDGE (R124). -/
  | rfStartBridge
  /-- RF.START.NCP (R125). -/
  | rfStartNcp (fileSize : Word32) (digest : Bytes)
  /-- RF.START.NODE (R126). -/
  | rfStartNode (fileSize : Word32) (nodeId : Word16) (digest : Bytes)
  /-- RF.PULL (R128): the read of port RX returned `rx`. -/
  | rfPull (rx : Bytes)
  /-- RF.ABORT (R131): the connection was closed. -/
  | rfAbort
  deriving DecidableEq, Repr

/-- The operation names of R61, without operands. -/
inductive Op where
  | sysReset | crcInit | crcByte | crcRead | crcCompute
  | envEncode | fwMdget | fwReqget | fwUpdget | fwReport | fwActset | fwDecreq
  | recEncode | reqDecode | rfStartBridge | rfStartNcp | rfStartNode | rfPull | rfAbort
  deriving DecidableEq, Repr

end Sys2Proof
end

