-- ==== Sys2Proof/WellFormed.lean ====
section
/-! DEFINITION. WellFormed: the operand types of `30_encoding.md` R61 that the Lean types leave wider (log 11). -/

namespace Sys2Proof

/-- `bytes[16]`: a content digest has exactly DIGEST_LEN bytes (R7, R61). -/
def digestOk (digest : Bytes) : Bool :=
  digest.length == Machine.digestLen

/-- The read of port RX returns 0 to 3 bytes (R46, R61). -/
def rxReadOk (rx : Bytes) : Bool :=
  decide (rx.length ≤ Machine.pullReqLen)

/-- An operation whose operands have the types of R61. Limits that the spec answers with a refusal (a chunk over 40
bytes, a tag outside the three) are no type: those operations are well formed. -/
def Instr.wf : Instr → Bool
  | .sysReset => true
  | .crcInit => true
  | .crcByte _ => true
  | .crcRead => true
  | .crcCompute _ => true
  | .envEncode _ _ _ _ => true
  | .fwMdget => true
  | .fwReqget _ _ _ _ => true
  | .fwUpdget _ _ _ => true
  | .fwReport _ _ _ => true
  | .fwActset _ _ _ _ _ => true
  | .fwDecreq _ => true
  | .recEncode _ _ _ => true
  | .reqDecode _ => true
  | .rfStartBridge => true
  | .rfStartNcp _ digest => digestOk digest
  | .rfStartNode _ _ digest => digestOk digest
  | .rfPull rx => rxReadOk rx
  | .rfAbort => true

end Sys2Proof
end

