-- ==== Sys2Proof/Decode.lean ====
section
/-! DEFINITION. Decode: command packets. The OP numbers are `30_encoding.md` R61; the serialisation of the operands after
the OP byte is the model's (log 1): scalars in R61's order, most significant byte first, the one byte sequence last. -/

namespace Sys2Proof

/-- Why a packet is no command of R61. -/
inductive DecodeError where
  /-- The packet has no OP byte. -/
  | emptyPacket
  /-- OP is not in the table of R61 (R78). -/
  | unknownOp (op : Byte)
  /-- The operands of this operation are not of its types: too few or too many bytes (R61, R78). -/
  | operandLength (op : Op)
  /-- The report number does not fit 15 bits (R61). -/
  | reportNumber
  /-- A `bool` operand is neither 0 nor 1 (R7). -/
  | notBool
  deriving DecidableEq, Repr

/-- The selector values of R61. -/
def Op.code : Op → Byte
  | .sysReset => 0x00
  | .crcInit => 0x10
  | .crcByte => 0x11
  | .crcRead => 0x12
  | .crcCompute => 0x13
  | .envEncode => 0x20
  | .fwMdget => 0x21
  | .fwReqget => 0x23
  | .fwUpdget => 0x25
  | .fwReport => 0x26
  | .fwActset => 0x28
  | .fwDecreq => 0x2F
  | .recEncode => 0x30
  | .reqDecode => 0x31
  | .rfStartBridge => 0x32
  | .rfStartNcp => 0x33
  | .rfStartNode => 0x34
  | .rfPull => 0x35
  | .rfAbort => 0x36

/-- The rows of R61, in its order. -/
def Op.all : List Op :=
  [.sysReset, .crcInit, .crcByte, .crcRead, .crcCompute, .envEncode, .fwMdget, .fwReqget, .fwUpdget, .fwReport,
    .fwActset, .fwDecreq, .recEncode, .reqDecode, .rfStartBridge, .rfStartNcp, .rfStartNode, .rfPull, .rfAbort]

/-- OP is matched in full, mask 0xFF (R61). -/
def Op.ofByte (b : Byte) : Option Op :=
  Op.all.find? fun o => o.code == b

/-- The operation of an instruction. -/
def Instr.op : Instr → Op
  | .sysReset => .sysReset
  | .crcInit => .crcInit
  | .crcByte _ => .crcByte
  | .crcRead => .crcRead
  | .crcCompute _ => .crcCompute
  | .envEncode _ _ _ _ => .envEncode
  | .fwMdget => .fwMdget
  | .fwReqget _ _ _ _ => .fwReqget
  | .fwUpdget _ _ _ => .fwUpdget
  | .fwReport _ _ _ => .fwReport
  | .fwActset _ _ _ _ _ => .fwActset
  | .fwDecreq _ => .fwDecreq
  | .recEncode _ _ _ => .recEncode
  | .reqDecode _ => .reqDecode
  | .rfStartBridge => .rfStartBridge
  | .rfStartNcp _ _ => .rfStartNcp
  | .rfStartNode _ _ _ => .rfStartNode
  | .rfPull _ => .rfPull
  | .rfAbort => .rfAbort

/-- An operation without operands: anything after the OP byte is refused. -/
def decodeNone (o : Op) (i : Instr) : Bytes → Except DecodeError Instr
  | [] => .ok i
  | _ :: _ => .error (.operandLength o)

/-- CRC.BYTE: `d`. -/
def decodeCrcByte : Bytes → Except DecodeError Instr
  | [d] => .ok (.crcByte d)
  | _ => .error (.operandLength .crcByte)

/-- ENV.ENCODE: `seq`, `flags0`, `flags1`, then `payload`. -/
def decodeEnvEncode : Bytes → Except DecodeError Instr
  | seq :: flags0 :: flags1 :: payload => .ok (.envEncode payload seq flags0 flags1)
  | _ => .error (.operandLength .envEncode)

/-- FW.REQGET: `vendor`, `fw`, `ck`, `target`, one byte each. -/
def decodeFwReqget : Bytes → Except DecodeError Instr
  | [vendor, fw, ck, target] => .ok (.fwReqget vendor fw ck target)
  | _ => .error (.operandLength .fwReqget)

/-- FW.UPDGET: `vendor`, `fw`, `ck`, two bytes each. -/
def decodeFwUpdget : Bytes → Except DecodeError Instr
  | [v1, v0, f1, f0, c1, c0] =>
    .ok (.fwUpdget (Machine.joinBE16 v1 v0) (Machine.joinBE16 f1 f0) (Machine.joinBE16 c1 c0))
  | _ => .error (.operandLength .fwUpdget)

/-- A `bool` operand (R7). -/
def decodeBool (b : Byte) : Except DecodeError Bool :=
  if b = 0 then .ok false else if b = 1 then .ok true else .error .notBool

/-- A `u15` operand in two bytes, whose top bit must be clear. -/
def decodeWord15 (first second : Byte) : Except DecodeError Machine.ReportNumber :=
  if first.msb then .error .reportNumber else .ok ((Machine.joinBE16 first second).setWidth Machine.reportNumberBits)

/-- FW.REPORT: `n` in two bytes, `last` in one, then `chunk`. -/
def decodeFwReport : Bytes → Except DecodeError Instr
  | n1 :: n0 :: l :: chunk =>
    match decodeWord15 n1 n0, decodeBool l with
    | .ok n, .ok last => .ok (.fwReport n last chunk)
    | .error e, _ => .error e
    | _, .error e => .error e
  | _ => .error (.operandLength .fwReport)

/-- FW.ACTSET: `vendor`, `fw`, `ck`, two bytes each, then `target`, `hw`. -/
def decodeFwActset : Bytes → Except DecodeError Instr
  | [v1, v0, f1, f0, c1, c0, target, hw] =>
    .ok (.fwActset (Machine.joinBE16 v1 v0) (Machine.joinBE16 f1 f0) (Machine.joinBE16 c1 c0) target hw)
  | _ => .error (.operandLength .fwActset)

/-- REC.ENCODE: `tag`, `rtype`, then `payload`. -/
def decodeRecEncode : Bytes → Except DecodeError Instr
  | tag :: rtype :: payload => .ok (.recEncode tag rtype payload)
  | _ => .error (.operandLength .recEncode)

/-- RF.START.NCP: `file_size` in four bytes, then the 16 bytes of `digest`. -/
def decodeRfStartNcp : Bytes → Except DecodeError Instr
  | s3 :: s2 :: s1 :: s0 :: digest =>
    if digestOk digest then .ok (.rfStartNcp (Machine.joinBE32 s3 s2 s1 s0) digest)
    else .error (.operandLength .rfStartNcp)
  | _ => .error (.operandLength .rfStartNcp)

/-- RF.START.NODE: `file_size` in four bytes, `node_id` in two, then the 16 bytes of `digest`. -/
def decodeRfStartNode : Bytes → Except DecodeError Instr
  | s3 :: s2 :: s1 :: s0 :: n1 :: n0 :: digest =>
    if digestOk digest then .ok (.rfStartNode (Machine.joinBE32 s3 s2 s1 s0) (Machine.joinBE16 n1 n0) digest)
    else .error (.operandLength .rfStartNode)
  | _ => .error (.operandLength .rfStartNode)

/-- RF.PULL: the 0 to 3 bytes that the read of RX returned. -/
def decodeRfPull (rx : Bytes) : Except DecodeError Instr :=
  if rxReadOk rx then .ok (.rfPull rx) else .error (.operandLength .rfPull)

/-- The operands after the OP byte. -/
def decodeOperands : Op → Bytes → Except DecodeError Instr
  | .sysReset, args => decodeNone .sysReset .sysReset args
  | .crcInit, args => decodeNone .crcInit .crcInit args
  | .crcByte, args => decodeCrcByte args
  | .crcRead, args => decodeNone .crcRead .crcRead args
  | .crcCompute, args => .ok (.crcCompute args)
  | .envEncode, args => decodeEnvEncode args
  | .fwMdget, args => decodeNone .fwMdget .fwMdget args
  | .fwReqget, args => decodeFwReqget args
  | .fwUpdget, args => decodeFwUpdget args
  | .fwReport, args => decodeFwReport args
  | .fwActset, args => decodeFwActset args
  | .fwDecreq, args => .ok (.fwDecreq args)
  | .recEncode, args => decodeRecEncode args
  | .reqDecode, args => .ok (.reqDecode args)
  | .rfStartBridge, args => decodeNone .rfStartBridge .rfStartBridge args
  | .rfStartNcp, args => decodeRfStartNcp args
  | .rfStartNode, args => decodeRfStartNode args
  | .rfPull, args => decodeRfPull args
  | .rfAbort, args => decodeNone .rfAbort .rfAbort args

/-- The command of a packet: the OP byte is looked at first (R168: UnknownOp first), then the operands. -/
def decode : Bytes → Except DecodeError Instr
  | [] => .error .emptyPacket
  | b :: args =>
    match Op.ofByte b with
    | none => .error (.unknownOp b)
    | some o => decodeOperands o args

/-- The operand bytes of a command (log 1). -/
def encodeOperands : Instr → Bytes
  | .sysReset => []
  | .crcInit => []
  | .crcByte d => [d]
  | .crcRead => []
  | .crcCompute data => data
  | .envEncode payload seq flags0 flags1 => [seq, flags0, flags1] ++ payload
  | .fwMdget => []
  | .fwReqget vendor fw ck target => [vendor, fw, ck, target]
  | .fwUpdget vendor fw ck => Machine.be16 vendor ++ Machine.be16 fw ++ Machine.be16 ck
  | .fwReport n last chunk => Machine.be16 (n.setWidth 16) ++ [Machine.boolByte last] ++ chunk
  | .fwActset vendor fw ck target hw =>
    Machine.be16 vendor ++ Machine.be16 fw ++ Machine.be16 ck ++ [target, hw]
  | .fwDecreq raw => raw
  | .recEncode tag rtype payload => [tag, rtype] ++ payload
  | .reqDecode rx => rx
  | .rfStartBridge => []
  | .rfStartNcp fileSize digest => Machine.be32 fileSize ++ digest
  | .rfStartNode fileSize nodeId digest => Machine.be32 fileSize ++ Machine.be16 nodeId ++ digest
  | .rfPull rx => rx
  | .rfAbort => []

/-- The packet of a command: its OP (R61), then its operands. -/
def encode (i : Instr) : Bytes :=
  i.op.code :: encodeOperands i

/-- How many operand bytes every packet of an operation has, its byte sequence left out: of a digest, which has a fixed
length, all 16 count. -/
def Op.fixedOperandBytes : Op → Nat
  | .sysReset => 0
  | .crcInit => 0
  | .crcByte => 1
  | .crcRead => 0
  | .crcCompute => 0
  | .envEncode => 3
  | .fwMdget => 0
  | .fwReqget => 4
  | .fwUpdget => 6
  | .fwReport => 3
  | .fwActset => 8
  | .fwDecreq => 0
  | .recEncode => 2
  | .reqDecode => 0
  | .rfStartBridge => 0
  | .rfStartNcp => 20
  | .rfStartNode => 22
  | .rfPull => 0
  | .rfAbort => 0

/-- Byte `k` of a table word: bits `8k+7` to `8k`. -/
def tableByte (w k : Nat) : Byte :=
  BitVec.ofNat 8 (w >>> (8 * k))

/-- The packet that a table word of `nbits` bits stands for: its bytes, then zero bytes up to the operation's fixed
operands, with an empty byte sequence (log 15). -/
def tablePacket (nbits w : Nat) : Bytes :=
  let given := (List.range ((nbits + 7) / 8)).map (tableByte w)
  let want := match given with
    | [] => 0
    | b :: _ => match Op.ofByte b with
      | none => 1
      | some o => 1 + o.fixedOperandBytes
  given ++ List.replicate (want - given.length) 0

/-- The instruction the decoder reads from an opcode-table word. -/
def decodeTableWord (nbits w : Nat) : Option Instr :=
  match decode (tablePacket nbits w) with
  | .ok i => some i
  | .error _ => none

end Sys2Proof
end

