-- ==== Sys2Proof/Machine/State.lean ====
section
/-! DEFINITION. State: the five registers of `10_state.md` R20, the histories of R31, and the ports and parameters of
R11 and R29 as plain data. -/

namespace Sys2Proof.Machine

/-- RF.STATE (R23). The codes are `RfState.code`. -/
inductive RfState where
  /-- No session has been started since reset. -/
  | idle
  /-- The header record has been sent; the framer waits for a pull request. -/
  | awaitReq
  /-- The EOF sentinel has been sent; the session ended normally. -/
  | done
  /-- The session was terminated by a fatal error. -/
  | failed
  deriving DecidableEq, Repr

/-- RF.CAUSE (R26, R162). The codes are `Cause.code`. -/
inductive Cause where
  | none
  | relayShortRead
  | connClosed
  | fileOpenFailed
  deriving DecidableEq, Repr

/-- The refusal reasons of R165: answers on RES, after which the block goes on. -/
inductive Reason where
  | unknownOp
  | chunkTooLong
  | badTag
  | badRecordType
  | payloadTooLong
  | badRequestLength
  | sessionNotIdle
  deriving DecidableEq, Repr

/-- A value on port RES (R11). `info` counts bytes read (R162). -/
inductive Res where
  | ok
  | value16 (v : Word16)
  | desc (index : Word16) (size : Byte)
  | noDesc
  | req (rtype : Byte) (length : Word16)
  | err (cause : Cause) (info : Nat)
  | refused (reason : Reason)
  deriving DecidableEq, Repr

/-- What the environment presents next (R10, R11; log 2, log 3). -/
inductive Input where
  /-- A packet: a host command on CMD, or an environment event (OP 0x35, 0x36) with its label (R61). -/
  | op (packet : Bytes)
  /-- The host has opened the source file: `FileOpen()` answers ok and FILE is `contents` (R45, R182 (b)). -/
  | fileReady (contents : Bytes)
  /-- The host has no source file open: `FileOpen()` answers fail (R45). -/
  | fileUnavailable
  deriving DecidableEq, Repr

/-- Why a step stops the machine. -/
inductive Fault where
  /-- Raised by `execRfPull` when RF.STATE is not AWAIT_REQ: "otherwise the step does not exist" (R128, R165). Safe. -/
  | pullNotEnabled
  /-- Raised by `execRfAbort` when RF.STATE is not AWAIT_REQ: the step is not enabled (R131, R165). Safe. -/
  | abortNotEnabled
  /-- Raised by `noInput` when nothing is presented while RF.STATE = AWAIT_REQ: the stall of R132. Safe. -/
  | stalled
  /-- Raised by `noInput` when nothing is presented and no session waits: the end of a run (R191). Safe. -/
  | endOfRun
  /-- Raised by `openFile` and `closeFile` while RF.STATE = AWAIT_REQ: outside the model (R45, R189, U14). Safe. -/
  | fileChangedInSession
  /-- Raised by `openFile` when FILE is longer than FILE_LEN_MAX (R5, R29). Safe. -/
  | fileTooLong
  deriving DecidableEq, Repr

/-- Why the model gives no meaning. The refusals of R165 are not these: they are answers on RES. -/
inductive Refusal where
  /-- Raised by an arm of `exec` whose instruction has no meaning yet. Safe. -/
  | notModelled (mnemonic : String)
  /-- Raised by `undecodable`: the packet's operands do not have the types of R61, a command that "cannot be
  expressed" (R78). Safe. -/
  | malformedCommand (why : DecodeError)
  deriving DecidableEq, Repr

/-- The machine. -/
structure State where
  /-- CRC (R21). -/
  crc : CrcWord
  /-- RF.STATE (R23). -/
  rfState : RfState
  /-- RF.TAG (R24). -/
  rfTag : Byte
  /-- RF.POS (R25). -/
  rfPos : Word32
  /-- RF.CAUSE (R26). -/
  rfCause : Cause
  /-- OUTLOG: the frames returned on OUT (R31). -/
  outlog : List Bytes
  /-- TXLOG: the bytes handed to the stream on TX (R31). -/
  txlog : Bytes
  /-- The values returned on RES (R8, R11; log 5). -/
  reslog : List Res
  /-- The bytes consumed from RX (R46; log 6). -/
  rxlog : Bytes
  /-- What `FileOpen()` answers (R45; log 3). -/
  fileOpen : Bool
  /-- FILE (R29, R45; log 3). -/
  file : Bytes
  /-- What the environment presents next, first to be taken first (R50; log 2). -/
  inputs : List Input
  deriving DecidableEq, Repr

/-- The state right after reset (R32, R180); the environment's fields as log 2, 3, 5, 6 say. -/
def State.reset : State where
  crc := crcInitial
  rfState := .idle
  rfTag := 0x00
  rfPos := 0
  rfCause := .none
  outlog := []
  txlog := []
  reslog := []
  rxlog := []
  fileOpen := false
  file := []
  inputs := []

end Sys2Proof.Machine
end

