-- ==== Sys2Proof/Machine/Flags.lean ====
section
/-! DEFINITION. Flags: the block has no arithmetic flags (`10_state.md` R27); these are the flag-like items of R27. -/

namespace Sys2Proof.Machine

/-- The 2-bit value of RF.STATE (R20, R23). -/
def RfState.code : RfState → BitVec 2
  | .idle => 0
  | .awaitReq => 1
  | .done => 2
  | .failed => 3

/-- The phase of a 2-bit value: all four are legal (R23). -/
def RfState.ofCode (v : BitVec 2) : RfState :=
  if v = 0 then .idle else if v = 1 then .awaitReq else if v = 2 then .done else .failed

/-- The 2-bit value of RF.CAUSE (R20, R162). -/
def Cause.code : Cause → BitVec 2
  | .none => 0
  | .relayShortRead => 1
  | .connClosed => 2
  | .fileOpenFailed => 3

/-- The cause of a 2-bit value. -/
def Cause.ofCode (v : BitVec 2) : Cause :=
  if v = 0 then .none else if v = 1 then .relayShortRead else if v = 2 then .connClosed else .fileOpenFailed

/-- The transient bit `t = r[15] XOR b` of the CRC bit step (R27 (c), R90). -/
def crcTransient (r : CrcWord) (b : Bool) : Bool :=
  r.msb ^^ b

end Sys2Proof.Machine
end

