-- ==== Sys2Proof/Machine/Ops.lean ====
section
/-! DEFINITION. Ops: the pseudocode primitives of `00_scope.md` R8 and the error entry of `60_exceptions.md` R169. -/

namespace Sys2Proof.Machine

/-- `CRC <- v`. -/
def State.setCrc (s : State) (v : CrcWord) : State :=
  { s with crc := v }

/-- `RF.STATE <- v`. -/
def State.setRfState (s : State) (v : RfState) : State :=
  { s with rfState := v }

/-- `RF.TAG <- v`. -/
def State.setRfTag (s : State) (v : Byte) : State :=
  { s with rfTag := v }

/-- `RF.POS <- v`. -/
def State.setRfPos (s : State) (v : Word32) : State :=
  { s with rfPos := v }

/-- `RF.CAUSE <- v`. -/
def State.setRfCause (s : State) (v : Cause) : State :=
  { s with rfCause := v }

/-- `Out(b)`: one frame to the host, appended to OUTLOG (R8). -/
def State.out (s : State) (frame : Bytes) : State :=
  { s with outlog := s.outlog ++ [frame] }

/-- `Tx(b)`: the bytes to the relay stream after all earlier ones, appended to TXLOG (R8, R47). -/
def State.tx (s : State) (bytes : Bytes) : State :=
  { s with txlog := s.txlog ++ bytes }

/-- `Res(v)`: the value to the host (R8). -/
def State.respond (s : State) (v : Res) : State :=
  { s with reslog := s.reslog ++ [v] }

/-- One read of RX consumes the bytes it returns (R46). -/
def State.consumeRx (s : State) (rx : Bytes) : State :=
  { s with rxlog := s.rxlog ++ rx }

/-- The environment's remaining inputs. -/
def State.setInputs (s : State) (inputs : List Input) : State :=
  { s with inputs := inputs }

/-- Port FILE: what `FileOpen()` answers from now on, and the file's contents (R45). -/
def State.setFile (s : State) (opened : Bool) (contents : Bytes) : State :=
  { s with fileOpen := opened, file := contents }

/-- A reset starts a new run with empty histories (R180 (d); RES and RX: log 5, log 6). -/
def State.clearHistories (s : State) : State :=
  { s with outlog := [], txlog := [], reslog := [], rxlog := [] }

/-- `refuse <Reason>`: no state changes, nothing is emitted, `Res(Refused(<Reason>))` (R8, R165). -/
def State.refuse (s : State) (r : Reason) : State :=
  s.respond (.refused r)

/-- `raise <Cause>(info)`, the one entry to FAILED (R169): RF.CAUSE and RF.STATE are written, nothing else;
for a host-visible operation `Res(Err(<Cause>, info))`. There is no return from it but SYS.RESET (R170). -/
def State.raise (s : State) (cause : Cause) (info : Nat) (hostVisible : Bool) : State :=
  let failed := (s.setRfCause cause).setRfState .failed
  if hostVisible then failed.respond (.err cause info) else failed

/-- The common part of the three RF.START operations (R123): state check, then file check, then the header. -/
def startSession (tag : Byte) (metadata : Bytes) (s : State) : State :=
  if s.rfState ≠ .idle then s.refuse .sessionNotIdle
  else if s.fileOpen = false then (s.setRfCause .fileOpenFailed).respond (.err .fileOpenFailed 0)
  else
    (((((s.setRfTag tag).setRfPos 0).setRfCause .none).tx (record tag rtHeader metadata)).setRfState
      .awaitReq).respond .ok

/-- Steps 3 and 4 of a pull request for `req` bytes (R128): read, advance RF.POS, send the data record, and after a
read that fell short send the EOF sentinel and end the session (R129). -/
def servePull (req : Word16) (s : State) : State :=
  let data := memRead s.file s.rfPos.toNat req.toNat
  let sent := (s.setRfPos (s.rfPos + BitVec.ofNat 32 data.length)).tx (record s.rfTag rtData data)
  if data.length < req.toNat then (sent.tx (record s.rfTag rtData [])).setRfState .done else sent

/-- The host opens the source file (R182 (b)). During a session FILE is constant (R45, R189), and N is at most
FILE_LEN_MAX (R29): anything else is outside the model. -/
def openFile (contents : Bytes) (s : State) : Host.Outcome State Fault Refusal :=
  if s.rfState = .awaitReq then .fault .fileChangedInSession
  else if contents.length > fileLenMax then .fault .fileTooLong
  else .next (s.setFile true contents)

/-- The host has no source file open: `FileOpen()` answers fail (R45). -/
def closeFile (s : State) : Host.Outcome State Fault Refusal :=
  if s.rfState = .awaitReq then .fault .fileChangedInSession
  else .next (s.setFile false s.file)

/-- Nothing is presented: a stall while a session waits (R132), otherwise the end of the run (R191). -/
def noInput (s : State) : Host.Outcome State Fault Refusal :=
  if s.rfState = .awaitReq then .fault .stalled else .fault .endOfRun

/-- A packet that is no command: an unassigned OP is refused by the block (R78, R165); one whose operands do not have
their types cannot be expressed (R78) and has no meaning here. -/
def undecodable (e : DecodeError) (s : State) : Host.Outcome State Fault Refusal :=
  match e with
  | .unknownOp _ => .next (s.refuse .unknownOp)
  | .emptyPacket => .refused (.malformedCommand e)
  | .operandLength _ => .refused (.malformedCommand e)
  | .reportNumber => .refused (.malformedCommand e)
  | .notBool => .refused (.malformedCommand e)

end Sys2Proof.Machine
end

