-- ==== Sys2Proof/Machine/Crc.lean ====
section
/-! DEFINITION. Crc: the CRC unit (`40_crc.md`): CRC.INIT, CRC.BYTE, CRC.READ, CRC.COMPUTE. -/

namespace Sys2Proof.Machine

/-- The bit step (R90): `t` from the register before the shift, the polynomial after it. -/
def crcBit (r : CrcWord) (b : Bool) : CrcWord :=
  let t := crcTransient r b
  let r1 := r <<< 1
  if t then r1 ^^^ crcPoly else r1

/-- The byte step (R91): the 8 bits of `d`, bit 7 first. -/
def crcByte (r : CrcWord) (d : Byte) : CrcWord :=
  [7, 6, 5, 4, 3, 2, 1, 0].foldl (fun acc k => crcBit acc (d.getLsbD k)) r

/-- The register after a byte sequence, in increasing index order, from `r` (R92, R98 (a)). -/
def crcFrom (r : CrcWord) (data : Bytes) : CrcWord :=
  data.foldl crcByte r

/-- The checksum of a byte sequence (R92): no final XOR, no reversal. -/
def crc16 (data : Bytes) : CrcWord :=
  crcFrom crcInitial data

/-- CRC.INIT (R93): `CRC <- 0x1D0F; Res(Ok)`. -/
def execCrcInit (s : State) : Host.Outcome State Fault Refusal :=
  .next ((s.setCrc crcInitial).respond .ok)

/-- CRC.BYTE (R94): `CRC <- crc_byte(CRC, d); Res(Ok)`. -/
def execCrcByte (d : Byte) (s : State) : Host.Outcome State Fault Refusal :=
  .next ((s.setCrc (crcByte s.crc d)).respond .ok)

/-- CRC.READ (R95): `Res(Value16(CRC))`. -/
def execCrcRead (s : State) : Host.Outcome State Fault Refusal :=
  .next (s.respond (.value16 s.crc))

/-- CRC.COMPUTE (R96): `c = crc16(data); CRC <- c; Res(Value16(c))`. -/
def execCrcCompute (data : Bytes) (s : State) : Host.Outcome State Fault Refusal :=
  .next ((s.setCrc (crc16 data)).respond (.value16 (crc16 data)))

end Sys2Proof.Machine
end

