-- ==== Sys2Proof/Machine/Codec.lean ====
section
/-! DEFINITION. Codec: the packet codec (`41_packet_codec.md`): ENV.ENCODE, FW.MDGET, FW.REQGET, FW.UPDGET, FW.REPORT,
FW.ACTSET, FW.DECREQ. Every encoder returns one frame on OUT and reads no register (R109). -/

namespace Sys2Proof.Machine

/-- The envelope (R62). -/
def envelopeFrame (payload : Bytes) (seq flags0 flags1 : Byte) : Bytes :=
  [envProtocolId, envSubId, flags0, flags1, seq, envSrcEp, envDstEp] ++ payload

/-- MD Get (R63). -/
def mdgetFrame : Bytes :=
  [fwClass, fwCmdMdget]

/-- Request Get (R67): one byte per operand, four constant bytes. -/
def reqgetFrame (vendor fw ck target : Byte) : Bytes :=
  [fwClass, fwCmdReqget, vendor, fw, ck, target] ++ reqgetTail

/-- Update Get (R64). -/
def updgetFrame (vendor fw ck : Word16) : Bytes :=
  [fwClass, fwCmdUpdget] ++ be16 vendor ++ be16 fw ++ be16 ck

/-- Active Set (R65). -/
def actsetFrame (vendor fw ck : Word16) (target hw : Byte) : Bytes :=
  [fwClass, fwCmdActset] ++ be16 vendor ++ be16 fw ++ be16 ck ++ [target, hw]

/-- The bytes of an Update Report before its checksum (R66, R106). -/
def reportBody (n : ReportNumber) (last : Bool) (chunk : Bytes) : Bytes :=
  [fwClass, fwCmdReport, reportByte2 n last, reportByte3 n] ++ chunk

/-- The chunk-request decoder (R68, R108): only the final 5 bytes are looked at. -/
def decodeChunkRequest (raw : Bytes) : Res :=
  if raw.length < trailerLen then .noDesc
  else
    match raw.drop (raw.length - trailerLen) with
    | [cls, cmd, size, idHi, idLo] =>
      if cls = fwClass ∧ cmd = fwCmdUpdget then .desc (joinBE16 idHi idLo) size else .noDesc
    | _ => .noDesc

/-- ENV.ENCODE (R101). -/
def execEnvEncode (payload : Bytes) (seq flags0 flags1 : Byte) (s : State) : Host.Outcome State Fault Refusal :=
  .next (s.out (envelopeFrame payload seq flags0 flags1))

/-- FW.MDGET (R103). -/
def execFwMdget (s : State) : Host.Outcome State Fault Refusal :=
  .next (s.out mdgetFrame)

/-- FW.REQGET (R107). -/
def execFwReqget (vendor fw ck target : Byte) (s : State) : Host.Outcome State Fault Refusal :=
  .next (s.out (reqgetFrame vendor fw ck target))

/-- FW.UPDGET (R104). -/
def execFwUpdget (vendor fw ck : Word16) (s : State) : Host.Outcome State Fault Refusal :=
  .next (s.out (updgetFrame vendor fw ck))

/-- FW.REPORT (R106): a chunk over CHUNK_SIZE is refused; else the checksum of the body goes to CRC and, high byte
first, to the end of the frame. -/
def execFwReport (n : ReportNumber) (last : Bool) (chunk : Bytes) (s : State) : Host.Outcome State Fault Refusal :=
  if chunk.length > chunkSize then .next (s.refuse .chunkTooLong)
  else
    let body := reportBody n last chunk
    let c := crc16 body
    .next ((s.setCrc c).out (body ++ be16 c))

/-- FW.ACTSET (R105). -/
def execFwActset (vendor fw ck : Word16) (target hw : Byte) (s : State) : Host.Outcome State Fault Refusal :=
  .next (s.out (actsetFrame vendor fw ck target hw))

/-- FW.DECREQ (R108): an answer in every case, never an error (R164 (a)). -/
def execFwDecreq (raw : Bytes) (s : State) : Host.Outcome State Fault Refusal :=
  .next (s.respond (decodeChunkRequest raw))

end Sys2Proof.Machine
end

