-- ==== Sys2Proof/Machine/Relay.lean ====
section
/-! DEFINITION. Relay: the relay framer (`42_relay_framer.md`): REC.ENCODE, REQ.DECODE, RF.START.BRIDGE, RF.START.NCP,
RF.START.NODE, RF.PULL, RF.ABORT. -/

namespace Sys2Proof.Machine

/-- The three legal channel tags (R69, R77). -/
def tagOk (tag : Byte) : Bool :=
  tag == tagBridge || tag == tagNcp || tag == tagNode

/-- The two legal record types (R69, R77). -/
def recordTypeOk (rtype : Byte) : Bool :=
  rtype == rtData || rtype == rtHeader

/-- REC.ENCODE (R121), its checks in the order of R168. -/
def execRecEncode (tag rtype : Byte) (payload : Bytes) (s : State) : Host.Outcome State Fault Refusal :=
  if tagOk tag = false then .next (s.refuse .badTag)
  else if recordTypeOk rtype = false then .next (s.refuse .badRecordType)
  else if payload.length > recLenMax then .next (s.refuse .payloadTooLong)
  else .next (s.out (record tag rtype payload))

/-- REQ.DECODE (R122): a short read is reported, and no register is written. -/
def execReqDecode (rx : Bytes) (s : State) : Host.Outcome State Fault Refusal :=
  if rx.length > pullReqLen then .next (s.refuse .badRequestLength)
  else if rx.length < pullReqLen then .next (s.respond (.err .relayShortRead rx.length))
  else .next (s.respond (.req (rx.getD 0 0) (requestedLength rx)))

/-- RF.START.BRIDGE (R124): tag 0x20, no metadata. -/
def execRfStartBridge (s : State) : Host.Outcome State Fault Refusal :=
  .next (startSession tagBridge [] s)

/-- RF.START.NCP (R125): tag 0x30, file_size and digest. -/
def execRfStartNcp (fileSize : Word32) (digest : Bytes) (s : State) : Host.Outcome State Fault Refusal :=
  .next (startSession tagNcp (ncpMetadata fileSize digest) s)

/-- RF.START.NODE (R126): tag 0x40, file_size, node_id and digest. -/
def execRfStartNode (fileSize : Word32) (nodeId : Word16) (digest : Bytes) (s : State) :
    Host.Outcome State Fault Refusal :=
  .next (startSession tagNode (nodeMetadata fileSize nodeId digest) s)

/-- RF.PULL (R128): enabled only in AWAIT_REQ; a read of fewer than 3 bytes is fatal (R130), and consumed. The step is
no host command, so it answers nothing on RES (log 7). -/
def execRfPull (rx : Bytes) (s : State) : Host.Outcome State Fault Refusal :=
  if s.rfState ≠ .awaitReq then .fault .pullNotEnabled
  else if rx.length < pullReqLen then .next ((s.consumeRx rx).raise .relayShortRead rx.length false)
  else .next (servePull (requestedLength rx) (s.consumeRx rx))

/-- RF.ABORT (R131): enabled only in AWAIT_REQ; no host command, so it answers nothing on RES (log 7). -/
def execRfAbort (s : State) : Host.Outcome State Fault Refusal :=
  if s.rfState ≠ .awaitReq then .fault .abortNotEnabled
  else .next (s.raise .connClosed 0 false)

end Sys2Proof.Machine
end

