-- ==== Sys2Proof/Machine/System.lean ====
section
/-! DEFINITION. System: SYS.RESET (`70_reset_and_hazards.md` R180). -/

namespace Sys2Proof.Machine

/-- The five registers at their reset values (R32, R180). -/
def State.resetRegisters (s : State) : State :=
  ((((s.setCrc crcInitial).setRfState .idle).setRfTag 0x00).setRfPos 0).setRfCause .none

/-- SYS.RESET (R180): registers at their reset values, a new run with empty histories, `Res(Ok)`. FILE and the pending
inputs are the environment's and stay (log 2, log 3). -/
def execSysReset (s : State) : Host.Outcome State Fault Refusal :=
  .next (s.resetRegisters.clearHistories.respond .ok)

end Sys2Proof.Machine
end

