-- ==== Sys2Proof/Machine/Dispatch.lean ====
section
/-! DEFINITION. Dispatch: one arm per operation of `30_encoding.md` R61. -/

namespace Sys2Proof.Machine

def exec (i : Instr) (s : State) : Host.Outcome State Fault Refusal :=
  match i with
  | .sysReset => Sys2Proof.Machine.execSysReset s
  | .crcInit => Sys2Proof.Machine.execCrcInit s
  | .crcByte d => Sys2Proof.Machine.execCrcByte d s
  | .crcRead => Sys2Proof.Machine.execCrcRead s
  | .crcCompute data => Sys2Proof.Machine.execCrcCompute data s
  | .envEncode payload seq flags0 flags1 => Sys2Proof.Machine.execEnvEncode payload seq flags0 flags1 s
  | .fwMdget => Sys2Proof.Machine.execFwMdget s
  | .fwReqget vendor fw ck target => Sys2Proof.Machine.execFwReqget vendor fw ck target s
  | .fwUpdget vendor fw ck => Sys2Proof.Machine.execFwUpdget vendor fw ck s
  | .fwReport n last chunk => Sys2Proof.Machine.execFwReport n last chunk s
  | .fwActset vendor fw ck target hw => Sys2Proof.Machine.execFwActset vendor fw ck target hw s
  | .fwDecreq raw => Sys2Proof.Machine.execFwDecreq raw s
  | .recEncode tag rtype payload => Sys2Proof.Machine.execRecEncode tag rtype payload s
  | .reqDecode rx => Sys2Proof.Machine.execReqDecode rx s
  | .rfStartBridge => Sys2Proof.Machine.execRfStartBridge s
  | .rfStartNcp fileSize digest => Sys2Proof.Machine.execRfStartNcp fileSize digest s
  | .rfStartNode fileSize nodeId digest => Sys2Proof.Machine.execRfStartNode fileSize nodeId digest s
  | .rfPull rx => Sys2Proof.Machine.execRfPull rx s
  | .rfAbort => Sys2Proof.Machine.execRfAbort s

end Sys2Proof.Machine
end

