-- ==== Sys2Proof/Machine/Step.lean ====
section
/-! DEFINITION. Step: one input of the environment is taken from the front and answered (`20_memory.md` R50). -/

namespace Sys2Proof.Machine

/-- One step: a packet is decoded and executed, a change at port FILE is taken, or there is nothing to do. -/
def step (s : State) : Host.Outcome State Fault Refusal :=
  match s.inputs with
  | [] => noInput s
  | .op packet :: rest =>
    match decode packet with
    | .ok i => exec i (s.setInputs rest)
    | .error e => undecodable e (s.setInputs rest)
  | .fileReady contents :: rest => openFile contents (s.setInputs rest)
  | .fileUnavailable :: rest => closeFile (s.setInputs rest)

/-- `s` with the command of a table word presented next (log 2: a program is presented from outside). -/
def State.withFetchWord (s : State) (nbits w : Nat) : State :=
  s.setInputs (.op (tablePacket nbits w) :: s.inputs)

end Sys2Proof.Machine
end

