-- ==== Sys2Proof/Machine/Pseudo.lean ====
section
/-! DEFINITION. Pseudo: the pseudo-operations of `30_encoding.md` R81 and command sequences (R79), over `exec`. -/

namespace Sys2Proof.Machine

/-- ENV.REPORT, ENV.UPDGET, ENV.ACTSET, ENV.REQGET, ENV.MDGET (R81): the encoder `i`, then ENV.ENCODE on the frame it
returned on OUT. An encoder that was refused returned no frame, and nothing is sealed. -/
def execEnveloped (i : Instr) (seq flags0 flags1 : Byte) (s : State) : Host.Outcome State Fault Refusal :=
  match exec i s with
  | .next t =>
    match t.outlog.drop s.outlog.length with
    | [frame] => exec (.envEncode frame seq flags0 flags1) t
    | _ => .next t
  | .fault f => .fault f
  | .refused r => .refused r

/-- A block after one operation; a block at which the operation does not exist (RF.PULL or RF.ABORT outside AWAIT_REQ)
stays as it is. Every other operation is answered (R9). -/
def issue (i : Instr) (block : State) : State :=
  match exec i block with
  | .next t => t
  | .fault _ => block
  | .refused _ => block

/-- A list of operations executed top to bottom, up to the first that stops (R79). -/
def execAll : List Instr → State → Host.Outcome State Fault Refusal
  | [], s => .next s
  | i :: rest, s =>
    match exec i s with
    | .next t => execAll rest t
    | .fault f => .fault f
    | .refused r => .refused r

/-- The expansion of CRC.COMPUTE in R81: CRC.INIT, CRC.BYTE for each byte, CRC.READ. -/
def stepwiseChecksum (data : Bytes) : List Instr :=
  [.crcInit] ++ data.map .crcByte ++ [.crcRead]

end Sys2Proof.Machine
end

