-- ==== Sys2Proof/Machine/Registry.lean ====
section
/-! DEFINITION. Registry: the host's client registry (`43_host_sessions.md` R150 to R156), outside the block (R3, R140;
log 12). The formats of an address and of a handle are not given (N28), so they are type parameters. -/

namespace Sys2Proof.Machine

/-- ClientSession: `{peer_address, connection_handle}` (R13, R150). -/
structure ClientSession (Address Handle : Type) where
  peerAddress : Address
  connectionHandle : Handle
  deriving DecidableEq, Repr

/-- A mapping from peer address to connection handle: at most one entry an address (`Registry.wf`). The list's order is
no part of the mapping (log 18). -/
abbrev Registry (Address Handle : Type) := List (ClientSession Address Handle)

/-- No address stands twice. -/
abbrev Registry.wf {Address Handle : Type} (r : Registry Address Handle) : Prop :=
  (r.map ClientSession.peerAddress).Nodup

/-- `unregister(address)`: remove; idempotent if absent (R152). -/
def Registry.unregister {Address Handle : Type} [DecidableEq Address] (r : Registry Address Handle)
    (address : Address) : Registry Address Handle :=
  r.filter fun e => decide (e.peerAddress ≠ address)

/-- `register(address, handle)`: insert or replace (R151). DESIGN CHOICE (log 18): the new entry stands first, also when it
replaces one; the spec gives the addresses no order. -/
def Registry.register {Address Handle : Type} [DecidableEq Address] (r : Registry Address Handle)
    (address : Address) (handle : Handle) : Registry Address Handle :=
  { peerAddress := address, connectionHandle := handle } :: r.unregister address

/-- `list()`: a point-in-time snapshot of the addresses (R153). DESIGN CHOICE (log 18): last registered first; the spec gives
the sequence no order. -/
def Registry.addresses {Address Handle : Type} (r : Registry Address Handle) : List Address :=
  r.map ClientSession.peerAddress

/-- `resolve(address)`: lookup for a single target (R154). -/
def Registry.resolve {Address Handle : Type} [DecidableEq Address] (r : Registry Address Handle)
    (address : Address) : Option Handle :=
  (r.find? fun e => decide (e.peerAddress = address)).map ClientSession.connectionHandle

end Sys2Proof.Machine
end

