-- ==== Sys2Proof/Machine/Connections.lean ====
section
/-! DEFINITION. Connections: connections from accept to their end, and the block instance behind each one's stream, which
its own unit of execution serves (`43_host_sessions.md` R150, R157, R158, `60_exceptions.md` R174; log 21). Outside the
block (R140). -/

namespace Sys2Proof.Machine

/-- The block instance whose TX and RX are the stream of a connection (R150, R184), and whether the connection is up. -/
structure Binding (Handle : Type) where
  handle : Handle
  block : State
  connected : Bool
  deriving DecidableEq, Repr

/-- The registry, and one block instance a connection. -/
structure Connections (Address Handle : Type) where
  registry : Registry Address Handle
  bindings : List (Binding Handle)
  deriving DecidableEq, Repr

/-- How the end of a connection reaches the block that reads from it (R131): as a forced closure, or as a read of no
bytes. The environment chooses. -/
inductive Closure where
  | forced
  | emptyRead
  deriving DecidableEq, Repr

/-- The event at the block (R130, R131). -/
def Closure.event : Closure → Instr
  | .forced => .rfAbort
  | .emptyRead => .rfPull []

/-- What happens to connections, one event after another. -/
inductive ConnectionEvent (Address Handle : Type) where
  /-- An inbound connection is accepted: a ClientSession is created (R150). -/
  | accept (address : Address) (handle : Handle)
  /-- The connection is gone: its ClientSession is destroyed (R150). -/
  | disconnect (handle : Handle) (how : Closure)
  /-- The host closes the connection: its ClientSession is destroyed (R150). -/
  | close (handle : Handle) (how : Closure)
  /-- The host opens the source file of the connection's block (R45, R158, R182 (b)). -/
  | fileReady (handle : Handle) (contents : Bytes)
  /-- The host has no source file open for the connection's block (R45). -/
  | fileUnavailable (handle : Handle)
  /-- A host command at, or an event of, the connection's block (R157, R174). -/
  | operate (handle : Handle) (i : Instr)
  deriving DecidableEq, Repr

/-- The connection an event is about. -/
def ConnectionEvent.handle {Address Handle : Type} : ConnectionEvent Address Handle → Handle
  | .accept _ handle => handle
  | .disconnect handle _ => handle
  | .close handle _ => handle
  | .fileReady handle _ => handle
  | .fileUnavailable handle => handle
  | .operate handle _ => handle

/-- The binding of a handle. -/
def Connections.bindingOf {Address Handle : Type} [DecidableEq Handle] (c : Connections Address Handle)
    (handle : Handle) : Option (Binding Handle) :=
  c.bindings.find? fun b => decide (b.handle = handle)

/-- The block instance behind a handle's stream (R150). -/
def Connections.blockOf {Address Handle : Type} [DecidableEq Handle] (c : Connections Address Handle)
    (handle : Handle) : Option State :=
  (c.bindingOf handle).map Binding.block

/-- The block instance that a transfer to a registered peer uses: R154, then R150. -/
def Connections.blockFor {Address Handle : Type} [DecidableEq Address] [DecidableEq Handle]
    (c : Connections Address Handle) (address : Address) : Option State :=
  (c.registry.resolve address).bind c.blockOf

/-- What the connection of a handle has been sent on TX, and what was read from its RX (R150: the handle is that stream). -/
def Connections.streamOf {Address Handle : Type} [DecidableEq Handle] (c : Connections Address Handle)
    (handle : Handle) : Option (Bytes × Bytes) :=
  (c.blockOf handle).map fun s => (s.txlog, s.rxlog)

/-- The binding of `b`'s handle becomes `b`; the others stay. -/
def Connections.setBinding {Address Handle : Type} [DecidableEq Handle] (c : Connections Address Handle)
    (b : Binding Handle) : Connections Address Handle :=
  { c with bindings := c.bindings.map fun x => if x.handle = b.handle then b else x }

/-- The connection's unit of execution makes one step of its block; none where there is no next state (R157). -/
def Connections.serve {Address Handle : Type} [DecidableEq Handle] (c : Connections Address Handle) (b : Binding Handle)
    (o : Host.Outcome State Fault Refusal) : Option (Connections Address Handle) :=
  match o with
  | .next t => some (c.setBinding { b with block := t })
  | .fault _ => none
  | .refused _ => none

/-- The operations that use TX or RX. -/
def usesStream (i : Instr) : Bool :=
  decide (i.op ∈ ([.rfStartBridge, .rfStartNcp, .rfStartNode, .rfPull, .rfAbort] : List Op))

/-- A new connection: its ClientSession is registered, and a block instance after power-on is bound to its stream. None
for a handle whose stream has an instance already: two must not be bound to one stream (R184). -/
def acceptConnection {Address Handle : Type} [DecidableEq Address] [DecidableEq Handle] (address : Address)
    (handle : Handle) (c : Connections Address Handle) : Option (Connections Address Handle) :=
  match c.bindingOf handle with
  | some _ => none
  | none =>
    some
      { registry := c.registry.register address handle
        bindings := { handle := handle, block := State.reset, connected := true } :: c.bindings }

/-- The ClientSession of a connection is destroyed (R150). DESIGN CHOICE (log 21): only its own: when a later accept
replaced the entry of its address, the later connection's entry stays. -/
def Registry.dropHandle {Address Handle : Type} [DecidableEq Address] [DecidableEq Handle]
    (r : Registry Address Handle) (handle : Handle) : Registry Address Handle :=
  match r.find? fun e => decide (e.connectionHandle = handle) with
  | some e => r.unregister e.peerAddress
  | none => r

/-- A session that waits on a closed connection is terminated, for good (R157): by RF.ABORT or a read of no bytes (R131).
In any other phase nothing of the closure reaches the block. -/
def hangUp (how : Closure) (block : State) : State :=
  issue how.event block

/-- The end of a connection: of its ClientSession (R150), and of the session that its block may be in (R157). None where
no such connection is up. -/
def endConnection {Address Handle : Type} [DecidableEq Address] [DecidableEq Handle] (handle : Handle) (how : Closure)
    (c : Connections Address Handle) : Option (Connections Address Handle) :=
  match c.bindingOf handle with
  | none => none
  | some b =>
    if b.connected then
      some ({ c with registry := c.registry.dropHandle handle }.setBinding
        { b with block := hangUp how b.block, connected := false })
    else none

/-- One operation at the block instance of a handle: nothing that uses TX or RX once the connection has ended (R182 (c)).
DESIGN CHOICE (log 21): RF.ABORT, or a read of no bytes, operated here is the event at the block alone. The connection stays
up and its ClientSession registered until a `disconnect` or a `close`, so SYS.RESET and a start may follow on its stream. -/
def operateBlock {Address Handle : Type} [DecidableEq Handle] (handle : Handle) (i : Instr)
    (c : Connections Address Handle) : Option (Connections Address Handle) :=
  match c.bindingOf handle with
  | none => none
  | some b => if usesStream i && !b.connected then none else c.serve b (exec i b.block)

/-- The host opens the source file of a connection's block, whenever it chooses outside a session (R29, R45, R182 (b)). -/
def openFileAt {Address Handle : Type} [DecidableEq Handle] (handle : Handle) (contents : Bytes)
    (c : Connections Address Handle) : Option (Connections Address Handle) :=
  match c.bindingOf handle with
  | none => none
  | some b => c.serve b (openFile contents b.block)

/-- The host has no source file open for a connection's block (R45). -/
def closeFileAt {Address Handle : Type} [DecidableEq Handle] (handle : Handle) (c : Connections Address Handle) :
    Option (Connections Address Handle) :=
  match c.bindingOf handle with
  | none => none
  | some b => c.serve b (closeFile b.block)

/-- One event. -/
def connectionStep {Address Handle : Type} [DecidableEq Address] [DecidableEq Handle]
    (e : ConnectionEvent Address Handle) (c : Connections Address Handle) : Option (Connections Address Handle) :=
  match e with
  | .accept address handle => acceptConnection address handle c
  | .disconnect handle how => endConnection handle how c
  | .close handle how => endConnection handle how c
  | .fileReady handle contents => openFileAt handle contents c
  | .fileUnavailable handle => closeFileAt handle c
  | .operate handle i => operateBlock handle i c

/-- The receive loop of one connection (R157): what successive reads of its RX return, each served as a pull request while
the session waits. The reads left over are those it no longer makes. -/
def receiveLoop {Address Handle : Type} [DecidableEq Handle] (handle : Handle) :
    List Bytes → Connections Address Handle → Connections Address Handle × List Bytes
  | [], c => (c, [])
  | rx :: later, c =>
    match operateBlock handle (.rfPull rx) c with
    | none => (c, rx :: later)
    | some d => receiveLoop handle later d

/-- At most one entry an address, at most one block instance a stream, at most one entry a connection, and only for
connections that are up. -/
def Connections.wf {Address Handle : Type} (c : Connections Address Handle) : Prop :=
  c.registry.wf ∧ (c.bindings.map Binding.handle).Nodup ∧ (c.registry.map ClientSession.connectionHandle).Nodup ∧
    ∀ e ∈ c.registry, ∃ b ∈ c.bindings, b.handle = e.connectionHandle ∧ b.connected = true

end Sys2Proof.Machine
end

