-- ==== Sys2Proof/Config.lean ====
section
/-! DEFINITION. Config: the OPEN parameters of `00_scope.md` R5 (U20), opaque: the spec gives none a value and the block reads none (log 12). -/

namespace Sys2Proof.Config

/-- The two callers of the envelope encoder whose default flag constants differ (R13, R102). -/
inductive Role where
  | controller
  | relay
  deriving DecidableEq, Repr

/-- FLAGS0_DEFAULT[role] (R5, R102). -/
opaque flags0Default : Role → Byte

/-- FLAGS1_DEFAULT[role] (R5, R102). -/
opaque flags1Default : Role → Byte

/-- FLAGS1_SECURE: the flags1 pattern that security-on forces (R5, R102). -/
opaque flags1Secure : Byte

/-- MAX_PAYLOAD: the transport's largest envelope payload, if it has one (R5, D30). -/
opaque maxPayload : Option Nat

/-- ACK_REQUIRED: whether the host waits for an acknowledgment (R5, R149). -/
opaque ackRequired : Bool

/-- CHUNK_REQ_TIMEOUT: the single wait window of `await_chunk_request`, in units the spec does not name (R5, N21). -/
opaque chunkReqTimeout : Nat

/-- What `chunks_sent` is when a transfer session begins: D00 gives it no rule (R141, N18; log 20). -/
opaque chunksSentAtStart : Nat

/-- What `chunks_sent` is after a report is transmitted, from what it was: D00 gives it no rule (R141, N18; log 20). -/
opaque chunksSentAfterReport : Nat → Nat

end Sys2Proof.Config
end

