-- ==== Sys2Proof/Machine/HostSession.lean ====
section
/-! DEFINITION. HostSession: the host's chunk-transfer session (`43_host_sessions.md` R141 to R149), outside the block
(R3, R140; log 12). It drives the block by `exec`, and adds no state to it. -/

namespace Sys2Proof.Machine

/-- ChunkDescriptor: `{index, size}` (R13). -/
structure Descriptor where
  index : Nat
  size : Nat
  deriving DecidableEq, Repr

/-- What `await_chunk_request` returns on timeout (R144). -/
def timeoutSentinel : Descriptor :=
  { index := 0, size := 0 }

/-- The host's test for the sentinel: size 0 (R146, D37). -/
def Descriptor.isSentinel (d : Descriptor) : Bool :=
  d.size == 0

/-- When the host's sequence number advances, which R148 leaves to the host model: a session is told (log 19). -/
inductive SeqAdvance where
  | perDatagram
  | perReport
  | perSession
  deriving DecidableEq, Repr

/-- The state of a chunk-transfer session (R141), with the host's sequence counter (R148) and the flag bytes of its role
(R102). `ackArrives` is the environment's: whether the initial request/report handshake is acknowledged inside the host's
wait (R149). `sent` is the datagrams transmitted, in order. -/
structure TransferSession where
  firmware : Bytes
  chunkSize : Nat
  totalChunkCount : Nat
  chunksSent : Nat
  seq : Byte
  seqAdvance : SeqAdvance
  flags0 : Byte
  flags1 : Byte
  ackArrives : Bool
  sent : List Bytes
  deriving DecidableEq, Repr

/-- `total_chunk_count = ceil(image_length / chunk_size)` (R142). -/
def totalChunkCount (imageLength : Nat) : Nat :=
  (imageLength + (chunkSize - 1)) / chunkSize

/-- The flag bytes a role passes to ENV.ENCODE when it adds nothing of its own (R102). -/
def roleFlags (role : Config.Role) : Byte × Byte :=
  (Config.flags0Default role, Config.flags1Default role)

/-- A session at its beginning: the chunk size is the constant, the total is computed once (R141, R142), and `chunks_sent`
is a free value (log 20). -/
def TransferSession.start (firmware : Bytes) (seq : Byte) (seqAdvance : SeqAdvance) (flags : Byte × Byte)
    (ackArrives : Bool) : TransferSession where
  firmware := firmware
  chunkSize := Machine.chunkSize
  totalChunkCount := Machine.totalChunkCount firmware.length
  chunksSent := Config.chunksSentAtStart
  seq := seq
  seqAdvance := seqAdvance
  flags0 := flags.1
  flags1 := flags.2
  ackArrives := ackArrives
  sent := []

/-- What R141 and R142 fix for the whole session: the chunk size, and the total computed from the image. -/
def TransferSession.wf (h : TransferSession) : Prop :=
  h.chunkSize = Machine.chunkSize ∧ h.totalChunkCount = Machine.totalChunkCount h.firmware.length

/-- The host's next sequence number: `(seq + 1) mod 256` (R148). -/
def nextSeq (seq : Byte) : Byte :=
  BitVec.ofNat 8 ((seq.toNat + 1) % seqModulus)

/-- The counter after one report's datagram: a report is one datagram (R72, R145). -/
def seqAfterReport : SeqAdvance → Byte → Byte
  | .perDatagram, seq => nextSeq seq
  | .perReport, seq => nextSeq seq
  | .perSession, seq => seq

/-- The counter after a session (R148; log 19). -/
def seqAfterSession : SeqAdvance → Byte → Byte
  | .perDatagram, seq => seq
  | .perReport, seq => seq
  | .perSession, seq => nextSeq seq

/-- The datagram of one report goes to the datagram transport (R145). -/
def TransferSession.transmit (h : TransferSession) (datagram : Bytes) : TransferSession :=
  { h with
    sent := h.sent ++ [datagram]
    seq := seqAfterReport h.seqAdvance h.seq
    chunksSent := Config.chunksSentAfterReport h.chunksSent }

/-- The bytes of chunk `k`, 1 <= k <= total (R143); none outside that range, which D00 leaves undefined (U6). -/
def TransferSession.chunk (h : TransferSession) (k : Nat) : Option Bytes :=
  if 1 ≤ k ∧ k ≤ h.totalChunkCount then some ((h.firmware.drop ((k - 1) * h.chunkSize)).take h.chunkSize) else none

/-- One pass of the loop of `deliver` (R145): FW.REPORT with `last_chunk = (k >= total_chunk_count)`, ENV.ENCODE on the
frame with the host's counter and flags, and the datagram is transmitted. The flag is `last_chunk`. None for a chunk
number with no bytes, or over 15 bits, which no FW.REPORT can carry (U6). -/
def sendReport (h : TransferSession) (k : Nat) (block : State) : Option (TransferSession × State × Bool) :=
  match h.chunk k with
  | none => none
  | some chunk =>
    if k < 2 ^ reportNumberBits then
      let last := decide (h.totalChunkCount ≤ k)
      match execEnveloped (.fwReport (BitVec.ofNat reportNumberBits k) last chunk) h.seq h.flags0 h.flags1 block with
      | .next t => t.outlog.getLast?.map fun datagram => (h.transmit datagram, t, last)
      | .fault _ => none
      | .refused _ => none
    else none

/-- Whether the host goes on after a datagram that should be acknowledged (R149, U16: the parameter decides). -/
def mayProceed (acknowledged : Bool) : Bool :=
  !Config.ackRequired || acknowledged

/-- Whether the host goes on after the report it sends next: the wait is for the acknowledgment of the initial
request/report handshake, so it follows the first report of the session and no other (R149; log 22). -/
def TransferSession.goesOn (h : TransferSession) : Bool :=
  !h.sent.isEmpty || mayProceed h.ackArrives

/-- How a delivery ends. -/
inductive Delivery where
  /-- A report with its last flag set was sent (R145). -/
  | lastSent
  /-- The chunk numbers asked for are used up, and none was the last. -/
  | used
  /-- An acknowledgment is required and did not arrive (R149; log 22). -/
  | unacknowledged
  deriving DecidableEq, Repr

/-- The inner loop of `deliver`: `count` chunk numbers from `k` on, in increasing order, left at the first report whose
last flag is set (R145), or when a required acknowledgment does not arrive (R149). -/
def deliverFrom (h : TransferSession) (k : Nat) (block : State) : Nat → Option (TransferSession × State × Delivery)
  | 0 => some (h, block, .used)
  | count + 1 =>
    match sendReport h k block with
    | none => none
    | some (h', t, true) => some (h', t, .lastSent)
    | some (h', t, false) => if h.goesOn then deliverFrom h' (k + 1) t count else some (h', t, .unacknowledged)

/-- `deliver(descriptor)` (R145): a descriptor with size 0 delivers nothing. -/
def deliver (h : TransferSession) (d : Descriptor) (block : State) : Option (TransferSession × State × Delivery) :=
  deliverFrom h d.index block d.size

/-- `await_chunk_request` (R144): each datagram, with its arrival time after the call, is classified by FW.DECREQ; those
that are no chunk request are discarded inside one window that never resets. -/
def awaitChunkRequest : List (Nat × Bytes) → State → Descriptor × State
  | [], block => (timeoutSentinel, block)
  | (time, datagram) :: later, block =>
    if time > Config.chunkReqTimeout then (timeoutSentinel, block)
    else
      let t := issue (.fwDecreq datagram) block
      match t.reslog.getLast? with
      | some (.desc index size) => ({ index := index.toNat, size := size.toNat }, t)
      | _ => awaitChunkRequest later t

/-- How the top-level loop stands (R146, R147). -/
inductive SessionEnd where
  /-- A delivered report had its last flag set. -/
  | completed
  /-- `await_chunk_request` returned the sentinel: the whole transfer is abandoned, not retried. -/
  | abandoned
  /-- A required acknowledgment did not arrive: the transfer does not go on (R149; log 22). -/
  | unacknowledged
  /-- The windows given are used up and neither has happened. -/
  | running
  deriving DecidableEq, Repr

/-- The session is over, and the counter advances if it does so per session (log 19). -/
def TransferSession.finish (h : TransferSession) : TransferSession :=
  { h with seq := seqAfterSession h.seqAdvance h.seq }

/-- The top-level loop over the datagrams of successive windows (R146); none outside the host model (U6). -/
def transferSession (h : TransferSession) :
    List (List (Nat × Bytes)) → State → Option (TransferSession × State × SessionEnd)
  | [], block => some (h, block, .running)
  | window :: later, block =>
    let (d, t) := awaitChunkRequest window block
    if d.isSentinel then some (h.finish, t, .abandoned)
    else
      match deliver h d t with
      | none => none
      | some (h', t', .lastSent) => some (h'.finish, t', .completed)
      | some (h', t', .unacknowledged) => some (h'.finish, t', .unacknowledged)
      | some (h', t', .used) => transferSession h' later t'

/-- Whether the datagram transport carries a payload (R5, D30: the block has no limit). -/
def transportCarries (payload : Bytes) : Bool :=
  match Config.maxPayload with
  | none => true
  | some limit => decide (payload.length ≤ limit)

end Sys2Proof.Machine
end

