-- ==== Sys2Proof/Machine/PeerReader.lean ====
section
/-! DEFINITION. PeerReader: what a peer must do to read the relay stream (`42_relay_framer.md` R137). It is outside the
block, which contains no record decoder. -/

namespace Sys2Proof.Machine

/-- A relay record as the peer sees it (R13, R69). -/
structure RelayRecord where
  tag : Byte
  rtype : Byte
  payload : Bytes
  deriving DecidableEq, Repr

/-- Read 4 bytes, take bytes 2 and 3 as a little-endian length, read that many payload bytes (R75 (c), R137). -/
def readRecord : Bytes → Option (RelayRecord × Bytes)
  | tag :: rtype :: lengthLo :: lengthHi :: rest =>
    let n := (joinLE16 lengthLo lengthHi).toNat
    if rest.length < n then none
    else some ({ tag := tag, rtype := rtype, payload := rest.take n }, rest.drop n)
  | _ => none

/-- At most `fuel` records, until the bytes are used up; none when they end inside a record. -/
def readRecords : Nat → Bytes → Option (List RelayRecord)
  | _, [] => some []
  | 0, _ :: _ => none
  | fuel + 1, b :: rest =>
    match readRecord (b :: rest) with
    | none => none
    | some (r, remaining) => (readRecords fuel remaining).map (r :: ·)

/-- The records of a whole stream: each takes at least 4 bytes, so its length is fuel enough. -/
def peerRecords (stream : Bytes) : Option (List RelayRecord) :=
  readRecords stream.length stream

end Sys2Proof.Machine
end

