-- ==== Sys2Proof/Safety.lean ====
section
/-! DEFINITION. Safety: what a legal state is, and the terms the statements use. -/

namespace Sys2Proof.Machine

/-- The next state of an outcome, if it is one. -/
def nextOf (o : Host.Outcome State Fault Refusal) : Option State :=
  match o with
  | .next t => some t
  | .fault _ => none
  | .refused _ => none

/-- The fault of an outcome, if it is one. -/
def faultOf (o : Host.Outcome State Fault Refusal) : Option Fault :=
  match o with
  | .next _ => none
  | .fault f => some f
  | .refused _ => none

/-- The three RF.START operations. -/
def isStart (i : Instr) : Bool :=
  i.op == .rfStartBridge || i.op == .rfStartNcp || i.op == .rfStartNode

/-- The six encoders of the packet codec (R109). -/
def isCodecEncoder (i : Instr) : Bool :=
  i.op == .envEncode || i.op == .fwMdget || i.op == .fwReqget || i.op == .fwUpdget || i.op == .fwReport ||
    i.op == .fwActset

/-- The commands that a running session leaves available and is not disturbed by (R185): the CRC unit's, the packet
codec's, REC.ENCODE and REQ.DECODE. -/
def isSideCommand (i : Instr) : Bool :=
  isCodecEncoder i || i.op == .crcInit || i.op == .crcByte || i.op == .crcRead || i.op == .crcCompute ||
    i.op == .fwDecreq || i.op == .recEncode || i.op == .reqDecode

/-- The header metadata each tag allows: bridge none, ncp 20 bytes, node 22 bytes (R71). No other tag is legal. -/
def LegalMetadata (tag : Byte) (metadata : Bytes) : Prop :=
  (tag = tagBridge ∧ metadata = []) ∨ (tag = tagNcp ∧ metadata.length = 20) ∨
    (tag = tagNode ∧ metadata.length = 22)

/-- What one session hands to the stream: one header record, then one data record for each chunk (R127). -/
def sessionStream (tag : Byte) (metadata : Bytes) (chunks : List Bytes) : Bytes :=
  record tag rtHeader metadata ++ (chunks.map (record tag rtData)).flatten

/-- TXLOG is one session's stream: a legal header first, one data record for each whole pull request read, all with
RF.TAG, their payloads concatenating to `sent`, and then `ending` (R127). -/
def Relayed (s : State) (sent ending : Bytes) : Prop :=
  ∃ metadata chunks,
    LegalMetadata s.rfTag metadata ∧ (∀ c ∈ chunks, c.length ≤ recLenMax) ∧
      s.txlog = sessionStream s.rfTag metadata chunks ++ ending ∧ chunks.flatten = sent ∧
        chunks.length = s.rxlog.length / pullReqLen

/-- What holds of the registers and histories in each phase of the relay framer. -/
def PhaseInv (s : State) : Prop :=
  match s.rfState with
  | .idle =>
    s.rfTag = 0x00 ∧ s.rfPos = 0 ∧ (s.rfCause = .none ∨ s.rfCause = .fileOpenFailed) ∧ s.txlog = [] ∧ s.rxlog = []
  | .awaitReq =>
    s.rfCause = .none ∧ s.fileOpen = true ∧ s.rfPos.toNat ≤ s.file.length ∧ s.rxlog.length % pullReqLen = 0 ∧
      Relayed s (s.file.take s.rfPos.toNat) []
  | .done =>
    s.rfCause = .none ∧ ∃ sent, sent.length = s.rfPos.toNat ∧ Relayed s sent (record s.rfTag rtData [])
  | .failed =>
    (s.rfCause = .relayShortRead ∨ s.rfCause = .connClosed) ∧
      ∃ sent, sent.length = s.rfPos.toNat ∧ Relayed s sent []

/-- The invariant that every step keeps: FILE is no longer than FILE_LEN_MAX (R29), and the phase's facts hold. -/
def Inv (s : State) : Prop :=
  s.file.length ≤ fileLenMax ∧ PhaseInv s

/-- The condition under which an operation is refused for a reason (R165), first match first (R168). UnknownOp is
answered before there is an operation. -/
def RefusalCondition (r : Reason) (i : Instr) (s : State) : Prop :=
  match r with
  | .unknownOp => False
  | .chunkTooLong => ∃ n last chunk, i = .fwReport n last chunk ∧ chunk.length > 40
  | .badTag => ∃ tag rtype payload, i = .recEncode tag rtype payload ∧ tag ∉ ([0x20, 0x30, 0x40] : List Byte)
  | .badRecordType =>
    ∃ tag rtype payload, i = .recEncode tag rtype payload ∧ tag ∈ ([0x20, 0x30, 0x40] : List Byte) ∧
      rtype ∉ ([0x00, 0x01] : List Byte)
  | .payloadTooLong =>
    ∃ tag rtype payload, i = .recEncode tag rtype payload ∧ tag ∈ ([0x20, 0x30, 0x40] : List Byte) ∧
      rtype ∈ ([0x00, 0x01] : List Byte) ∧ payload.length > 65535
  | .badRequestLength => ∃ rx, i = .reqDecode rx ∧ rx.length > 3
  | .sessionNotIdle => isStart i = true ∧ s.rfState ≠ .idle

/-- Two states whose block and port FILE agree; histories and pending inputs may differ (R31). -/
def SameBlock (s t : State) : Prop :=
  s.crc = t.crc ∧ s.rfState = t.rfState ∧ s.rfTag = t.rfTag ∧ s.rfPos = t.rfPos ∧ s.rfCause = t.rfCause ∧
    s.fileOpen = t.fileOpen ∧ s.file = t.file

/-- `t` has the histories of `s` with these outputs added at their ends, and `rx` consumed. -/
def Extends (s t : State) (frames : List Bytes) (sent : Bytes) (answers : List Res) (rx : Bytes) : Prop :=
  t.outlog = s.outlog ++ frames ∧ t.txlog = s.txlog ++ sent ∧ t.reslog = s.reslog ++ answers ∧
    t.rxlog = s.rxlog ++ rx

end Sys2Proof.Machine
end

