-- ==== Sys2Proof/Certificates/Slice0/Obligations.lean ====
section
/-! DEFINITION. Obligations: the statements for the provers. Each docstring names the rule of `spec/` it formalises. -/

open Sys2Proof Sys2Proof.Machine

/-! ## Reset -/

/-- R32: every register at its reset value, both histories empty. -/
def Obligations.ResetLeavesTheSpecifiedValues : Prop :=
  State.reset.crc = 0x1D0F ∧ State.reset.rfState.code = 0 ∧ State.reset.rfTag = 0x00 ∧ State.reset.rfPos = 0 ∧
    State.reset.rfCause.code = 0 ∧ State.reset.outlog = [] ∧ State.reset.txlog = []

/-- R180: SYS.RESET is accepted in every state, writes the five registers, sends nothing, starts a new run with both
histories empty and answers Ok; power-on leaves the same registers. -/
def Obligations.SysResetRestoresEveryRegister : Prop :=
  ∀ s : State, ∃ t, exec .sysReset s = .next t ∧
    t.crc = 0x1D0F ∧ t.rfState = .idle ∧ t.rfTag = 0x00 ∧ t.rfPos = 0 ∧ t.rfCause = .none ∧
    t.outlog = [] ∧ t.txlog = [] ∧ t.reslog.getLast? = some .ok ∧
    State.reset.crc = t.crc ∧ State.reset.rfState = t.rfState ∧ State.reset.rfTag = t.rfTag ∧
    State.reset.rfPos = t.rfPos ∧ State.reset.rfCause = t.rfCause

/-! ## CRC unit -/

/-- R90: the bit step in closed form: shift with bit 15 dropped, then the polynomial exactly when bit 15 of the register
before the shift differs from the data bit. -/
def Obligations.CrcBitShiftsThenXorsThePolynomial : Prop :=
  ∀ (r : Word16) (b : Bool),
    (crcBit r b).toNat =
      (2 * r.toNat) % 65536 ^^^ (if decide (32768 ≤ r.toNat) = b then 0 else 0x1021)

/-- R91: the byte step is the bit step over bits 7, 6, …, 0. -/
def Obligations.CrcByteTakesBitsHighToLow : Prop :=
  ∀ (r : Word16) (d : Byte),
    crcByte r d =
      crcBit (crcBit (crcBit (crcBit (crcBit (crcBit (crcBit (crcBit r (d.getLsbD 7)) (d.getLsbD 6)) (d.getLsbD 5))
        (d.getLsbD 4)) (d.getLsbD 3)) (d.getLsbD 2)) (d.getLsbD 1)) (d.getLsbD 0)

/-- R92: the checksum is the left fold of the byte step from 0x1D0F, in increasing index order. -/
def Obligations.ChecksumFoldsBytesInOrder : Prop :=
  crc16 [] = 0x1D0F ∧ ∀ (m : Bytes) (d : Byte), crc16 (m ++ [d]) = crcByte (crc16 m) d

/-- R93, with its frame. -/
def Obligations.CrcInitLoadsTheInitialValue : Prop :=
  ∀ s : State, exec .crcInit s = .next { s with crc := 0x1D0F, reslog := s.reslog ++ [.ok] }

/-- R94, with its frame. -/
def Obligations.CrcByteAdvancesTheRegister : Prop :=
  ∀ (d : Byte) (s : State),
    exec (.crcByte d) s = .next { s with crc := crcByte s.crc d, reslog := s.reslog ++ [.ok] }

/-- R95, with its frame: CRC is not changed. -/
def Obligations.CrcReadAnswersTheRegister : Prop :=
  ∀ s : State, exec .crcRead s = .next { s with reslog := s.reslog ++ [.value16 s.crc] }

/-- R96, with its frame: the result does not depend on the old register, and the register is left holding it. The last
clause of R96, equality with the stepwise sequence, is the second conjunct: same register, same last answer, nothing but
RES history apart. -/
def Obligations.CrcComputeEqualsTheStepwiseChecksum : Prop :=
  ∀ (data : Bytes) (s : State),
    exec (.crcCompute data) s =
        .next { s with crc := crc16 data, reslog := s.reslog ++ [.value16 (crc16 data)] } ∧
      ∃ answers,
        execAll (stepwiseChecksum data) s =
          .next { s with crc := crc16 data, reslog := s.reslog ++ answers ++ [.value16 (crc16 data)] }

/-- `40_crc.md` section 3, law (b): the bit and byte steps are linear over XOR, and so is the checksum of two
sequences of equal length, up to the checksum of as many zero bytes. -/
def Obligations.ChecksumIsLinearOverXor : Prop :=
  (∀ (r q : Word16) (b c : Bool), crcBit (r ^^^ q) (b ^^ c) = crcBit r b ^^^ crcBit q c) ∧
    (∀ (r q : Word16) (d e : Byte), crcByte (r ^^^ q) (d ^^^ e) = crcByte r d ^^^ crcByte q e) ∧
      ∀ x y : Bytes, x.length = y.length →
        crc16 x ^^^ crc16 y ^^^ crc16 (List.zipWith (· ^^^ ·) x y) = crc16 (List.replicate x.length 0)

/-- `40_crc.md` section 3, law (c): appending the checksum, high byte first, drives the register to zero. -/
def Obligations.AppendedChecksumLeavesZeroResidue : Prop :=
  ∀ m : Bytes, crc16 (m ++ [hi8 (crc16 m), lo8 (crc16 m)]) = 0

/-- `40_crc.md` section 3, law (d): from one register, two different sequences of the same length 1 or 2 leave different
registers. -/
def Obligations.ChecksumSeparatesOneAndTwoByteInputs : Prop :=
  (∀ (r : Word16) (a b : Byte), crcFrom r [a] = crcFrom r [b] → a = b) ∧
    ∀ (r : Word16) (a a' b b' : Byte), crcFrom r [a, a'] = crcFrom r [b, b'] → a = b ∧ a' = b'

/-- `40_crc.md` section 3: order sensitivity holds for 2 and 3 bytes and is no law from 4 bytes on. -/
def Obligations.ChecksumIsOrderSensitiveUpToThreeBytes : Prop :=
  (∀ a b : Byte, crc16 [a, b] = crc16 [b, a] → [a, b] = [b, a]) ∧
    (∀ a b c : Byte, crc16 [a, b, c] = crc16 [c, b, a] → [a, b, c] = [c, b, a]) ∧
      ∃ m : Bytes, m.length = 4 ∧ crc16 m = crc16 m.reverse ∧ m ≠ m.reverse

/-- R20, R21 (`10_state.md` sections 1, 2): CRC is written by CRC.INIT, CRC.BYTE, CRC.COMPUTE, FW.REPORT and SYS.RESET
only; no operation of the relay framer writes it. -/
def Obligations.OnlyFiveOperationsWriteCrc : Prop :=
  ∀ (i : Instr) (s t : State), exec i s = .next t →
    i.op ∉ ([.crcInit, .crcByte, .crcCompute, .fwReport, .sysReset] : List Op) → t.crc = s.crc

/-- R20, R21 (`10_state.md` sections 1, 2): CRC is read by CRC.BYTE and CRC.READ only: any other operation does the same
whatever CRC held, and leaves either what it wrote there or what it found. -/
def Obligations.OnlyByteAndReadReadCrc : Prop :=
  ∀ (i : Instr) (s t : State) (v : Word16), exec i s = .next t → i.op ∉ ([.crcByte, .crcRead] : List Op) →
    ∃ t', exec i { s with crc := v } = .next t' ∧ { t' with crc := t.crc } = t ∧ (t'.crc = t.crc ∨ t'.crc = v)

/-! ## Packet codec -/

/-- R101 and R62, with the frame: nothing but OUTLOG changes. -/
def Obligations.EnvelopePrependsSevenBytes : Prop :=
  ∀ (payload : Bytes) (seq flags0 flags1 : Byte) (s : State),
    exec (.envEncode payload seq flags0 flags1) s =
      .next { s with outlog := s.outlog ++ [[0x23, 0x02, flags0, flags1, seq, 0x00, 0x00] ++ payload] }

/-- R103 and R63, with the frame. -/
def Obligations.MdGetIsTwoConstantBytes : Prop :=
  ∀ s : State, exec .fwMdget s = .next { s with outlog := s.outlog ++ [[0x7A, 0x01]] }

/-- R107 and R67, with the frame. -/
def Obligations.RequestGetIsTenBytes : Prop :=
  ∀ (vendor fw ck target : Byte) (s : State),
    exec (.fwReqget vendor fw ck target) s =
      .next { s with outlog := s.outlog ++ [[0x7A, 0x03, vendor, fw, ck, target, 0x00, 0x28, 0x00, 0x01]] }

/-- R104 and R64, with the frame: three 16-bit fields, high byte first. -/
def Obligations.UpdateGetIsBigEndian : Prop :=
  ∀ (v1 v0 f1 f0 c1 c0 : Byte) (vendor fw ck : Word16) (s : State),
    vendor.toNat = v1.toNat * 256 + v0.toNat → fw.toNat = f1.toNat * 256 + f0.toNat →
    ck.toNat = c1.toNat * 256 + c0.toNat →
    exec (.fwUpdget vendor fw ck) s =
      .next { s with outlog := s.outlog ++ [[0x7A, 0x05, v1, v0, f1, f0, c1, c0]] }

/-- R105 and R65, with the frame. -/
def Obligations.ActiveSetIsBigEndian : Prop :=
  ∀ (v1 v0 f1 f0 c1 c0 target hw : Byte) (vendor fw ck : Word16) (s : State),
    vendor.toNat = v1.toNat * 256 + v0.toNat → fw.toNat = f1.toNat * 256 + f0.toNat →
    ck.toNat = c1.toNat * 256 + c0.toNat →
    exec (.fwActset vendor fw ck target hw) s =
      .next { s with outlog := s.outlog ++ [[0x7A, 0x08, v1, v0, f1, f0, c1, c0, target, hw]] }

/-- R106 (with R66, R74): a chunk of more than 40 bytes is refused with no effect; otherwise the frame is class, command,
`(n >> 8) OR (last << 7)`, `n AND 0xFF`, the chunk and the checksum of all of that, high byte first, and CRC keeps the
checksum. -/
def Obligations.UpdateReportCarriesItsChecksum : Prop :=
  ∀ (n : Word15) (last : Bool) (chunk : Bytes) (s : State),
    (40 < chunk.length →
      exec (.fwReport n last chunk) s = .next { s with reslog := s.reslog ++ [.refused .chunkTooLong] }) ∧
    (chunk.length ≤ 40 →
      ∃ (b2 b3 : Byte) (c : Word16),
        b2.toNat = n.toNat / 256 + 128 * last.toNat ∧ b3.toNat = n.toNat % 256 ∧
        c = crc16 ([0x7A, 0x06, b2, b3] ++ chunk) ∧
        exec (.fwReport n last chunk) s =
          .next { s with
            crc := c
            outlog := s.outlog ++ [[0x7A, 0x06, b2, b3] ++ chunk ++ [c.extractLsb' 8 8, c.extractLsb' 0 8]] })

/-- R106 corner cases, R72: every report frame has 6 bytes and its data; its last two bytes are the checksum of the bytes
before them, which is what CRC then holds; the checksum of the whole frame is zero; and the envelope put around it covers
no byte of the checksum. -/
def Obligations.EnvelopedReportChecksumCoversTheReportAlone : Prop :=
  ∀ (n : Word15) (last : Bool) (chunk : Bytes) (seq flags0 flags1 : Byte) (s : State), chunk.length ≤ 40 →
    ∃ body t,
      execEnveloped (.fwReport n last chunk) seq flags0 flags1 s = .next t ∧
      body.length = 4 + chunk.length ∧ t.crc = crc16 body ∧
      t.outlog = s.outlog ++ [body ++ be16 (crc16 body),
        [0x23, 0x02, flags0, flags1, seq, 0x00, 0x00] ++ (body ++ be16 (crc16 body))] ∧
      crc16 (body ++ be16 (crc16 body)) = 0

/-- R108 (with R68, R76): the answer depends on the final 5 bytes alone: class 0x7A and command 0x05 there give the
descriptor, anything else, a datagram under 5 bytes included, gives NoDesc; no register changes. -/
def Obligations.ChunkRequestIsReadFromTheFinalFiveBytes : Prop :=
  ∀ (raw : Bytes) (s : State),
    (∀ (before : Bytes) (size idHi idLo : Byte) (index : Word16), raw = before ++ [0x7A, 0x05, size, idHi, idLo] →
      index.toNat = idHi.toNat * 256 + idLo.toNat →
      exec (.fwDecreq raw) s = .next { s with reslog := s.reslog ++ [.desc index size] }) ∧
    ((∀ (before : Bytes) (size idHi idLo : Byte), raw ≠ before ++ [0x7A, 0x05, size, idHi, idLo]) →
      exec (.fwDecreq raw) s = .next { s with reslog := s.reslog ++ [.noDesc] })

/-- R109: each encoder of the packet codec returns exactly one frame, the same for the same operands, in every state of
the relay framer; it reads no register and writes none, but that FW.REPORT writes CRC. (A report whose chunk is over 40
bytes is refused, R106.) -/
def Obligations.CodecEncodersReturnOneFrame : Prop :=
  ∀ i : Instr, isCodecEncoder i = true → (∀ n last chunk, i = .fwReport n last chunk → chunk.length ≤ 40) →
    ∃ (frame : Bytes) (c : Word16), ∀ s : State,
      exec i s = .next { s with
        outlog := s.outlog ++ [frame]
        crc := if i.op = .fwReport then c else s.crc }

/-! ## Relay framer: marshallers -/

/-- R121 (with R69), its checks in order, and the frame: no register is read or written. -/
def Obligations.RecordEncodingChecksThenFrames : Prop :=
  ∀ (tag rtype : Byte) (payload : Bytes) (s : State),
    (tag ∉ ([0x20, 0x30, 0x40] : List Byte) →
      exec (.recEncode tag rtype payload) s = .next { s with reslog := s.reslog ++ [.refused .badTag] }) ∧
    (tag ∈ ([0x20, 0x30, 0x40] : List Byte) → rtype ∉ ([0x00, 0x01] : List Byte) →
      exec (.recEncode tag rtype payload) s = .next { s with reslog := s.reslog ++ [.refused .badRecordType] }) ∧
    (tag ∈ ([0x20, 0x30, 0x40] : List Byte) → rtype ∈ ([0x00, 0x01] : List Byte) → 65535 < payload.length →
      exec (.recEncode tag rtype payload) s = .next { s with reslog := s.reslog ++ [.refused .payloadTooLong] }) ∧
    (tag ∈ ([0x20, 0x30, 0x40] : List Byte) → rtype ∈ ([0x00, 0x01] : List Byte) → payload.length ≤ 65535 →
      ∀ lo hi : Byte, payload.length = lo.toNat + 256 * hi.toNat →
      exec (.recEncode tag rtype payload) s =
        .next { s with outlog := s.outlog ++ [[tag, rtype, lo, hi] ++ payload] })

/-- R122 (with R70), and the frame: over 3 bytes is refused, under 3 reported, exactly 3 decoded; no register is written. -/
def Obligations.PullRequestDecodingNeedsThreeBytes : Prop :=
  ∀ (rx : Bytes) (s : State),
    (3 < rx.length →
      exec (.reqDecode rx) s = .next { s with reslog := s.reslog ++ [.refused .badRequestLength] }) ∧
    (rx.length < 3 →
      exec (.reqDecode rx) s = .next { s with reslog := s.reslog ++ [.err .relayShortRead rx.length] }) ∧
    ∀ (rtype lo hi : Byte) (length : Word16), rx = [rtype, lo, hi] → length.toNat = lo.toNat + 256 * hi.toNat →
      exec (.reqDecode rx) s = .next { s with reslog := s.reslog ++ [.req rtype length] }

/-! ## Relay framer: sessions -/

/-- R124 with R123: all three ways a bridge start can go, with the frame of each. -/
def Obligations.BridgeStartSendsAnEmptyHeader : Prop :=
  ∀ s : State,
    (s.rfState ≠ .idle →
      exec .rfStartBridge s = .next { s with reslog := s.reslog ++ [.refused .sessionNotIdle] }) ∧
    (s.rfState = .idle → s.fileOpen = false →
      exec .rfStartBridge s =
        .next { s with rfCause := .fileOpenFailed, reslog := s.reslog ++ [.err .fileOpenFailed 0] }) ∧
    (s.rfState = .idle → s.fileOpen = true →
      exec .rfStartBridge s =
        .next { s with
          rfState := .awaitReq, rfTag := 0x20, rfPos := 0, rfCause := .none
          txlog := s.txlog ++ [0x20, 0x01, 0x00, 0x00], reslog := s.reslog ++ [.ok] })

/-- R125 with R123: all three ways an ncp start can go; file_size goes out least significant byte first. -/
def Obligations.NcpStartSendsSizeAndDigest : Prop :=
  ∀ (b3 b2 b1 b0 : Byte) (fileSize : Word32) (digest : Bytes) (s : State), digest.length = 16 →
    fileSize.toNat = b3.toNat * 16777216 + b2.toNat * 65536 + b1.toNat * 256 + b0.toNat →
    (s.rfState ≠ .idle →
      exec (.rfStartNcp fileSize digest) s = .next { s with reslog := s.reslog ++ [.refused .sessionNotIdle] }) ∧
    (s.rfState = .idle → s.fileOpen = false →
      exec (.rfStartNcp fileSize digest) s =
        .next { s with rfCause := .fileOpenFailed, reslog := s.reslog ++ [.err .fileOpenFailed 0] }) ∧
    (s.rfState = .idle → s.fileOpen = true →
      exec (.rfStartNcp fileSize digest) s =
        .next { s with
          rfState := .awaitReq, rfTag := 0x30, rfPos := 0, rfCause := .none
          txlog := s.txlog ++ [0x30, 0x01, 0x14, 0x00, b0, b1, b2, b3] ++ digest
          reslog := s.reslog ++ [.ok] })

/-- R126 with R123: all three ways a node start can go; file_size little-endian, node_id big-endian. -/
def Obligations.NodeStartSendsSizeNodeAndDigest : Prop :=
  ∀ (b3 b2 b1 b0 n1 n0 : Byte) (fileSize : Word32) (nodeId : Word16) (digest : Bytes) (s : State),
    digest.length = 16 →
    fileSize.toNat = b3.toNat * 16777216 + b2.toNat * 65536 + b1.toNat * 256 + b0.toNat →
    nodeId.toNat = n1.toNat * 256 + n0.toNat →
    (s.rfState ≠ .idle →
      exec (.rfStartNode fileSize nodeId digest) s =
        .next { s with reslog := s.reslog ++ [.refused .sessionNotIdle] }) ∧
    (s.rfState = .idle → s.fileOpen = false →
      exec (.rfStartNode fileSize nodeId digest) s =
        .next { s with rfCause := .fileOpenFailed, reslog := s.reslog ++ [.err .fileOpenFailed 0] }) ∧
    (s.rfState = .idle → s.fileOpen = true →
      exec (.rfStartNode fileSize nodeId digest) s =
        .next { s with
          rfState := .awaitReq, rfTag := 0x40, rfPos := 0, rfCause := .none
          txlog := s.txlog ++ [0x40, 0x01, 0x16, 0x00, b0, b1, b2, b3, n1, n0] ++ digest
          reslog := s.reslog ++ [.ok] })

/-- R128 (steps 3 and 4), R129: in a session, a request of 3 bytes for `req` bytes is answered by one data record with
the next `min(req, N - RF.POS)` bytes of FILE, RF.POS moves by as many, and exactly when they are fewer than `req` the EOF
sentinel follows and the session is DONE. The premises on RF.POS and N are those of R25 and R29 (`Inv` keeps them). The
byte count of the record is exact: at most 65535. -/
def Obligations.PullSendsTheNextFileBytes : Prop :=
  ∀ (rtype lo hi : Byte) (s : State),
    s.rfState = .awaitReq → s.rfPos.toNat ≤ s.file.length → s.file.length ≤ 4294967295 →
    ∀ (req : Nat) (data : Bytes) (lenLo lenHi : Byte), req = lo.toNat + 256 * hi.toNat →
      data = (s.file.drop s.rfPos.toNat).take req → data.length = lenLo.toNat + 256 * lenHi.toNat →
      ∃ pos : Word32, pos.toNat = s.rfPos.toNat + data.length ∧
        (data.length = req →
          exec (.rfPull [rtype, lo, hi]) s =
            .next { s with
              rfPos := pos, rxlog := s.rxlog ++ [rtype, lo, hi]
              txlog := s.txlog ++ [s.rfTag, 0x00, lenLo, lenHi] ++ data }) ∧
        (data.length < req →
          exec (.rfPull [rtype, lo, hi]) s =
            .next { s with
              rfPos := pos, rfState := .done, rxlog := s.rxlog ++ [rtype, lo, hi]
              txlog := s.txlog ++ [s.rfTag, 0x00, lenLo, lenHi] ++ data ++ [s.rfTag, 0x00, 0x00, 0x00] }) ∧
        data.length ≤ req

/-- R130 (with R128): a read of fewer than 3 bytes terminates the session; nothing is sent, RF.POS, RF.TAG and CRC keep
their values, the bytes are consumed (`rxlog`, log 6). -/
def Obligations.ShortReadFailsTheSession : Prop :=
  ∀ (rx : Bytes) (s : State), s.rfState = .awaitReq → rx.length < 3 →
    exec (.rfPull rx) s =
      .next { s with rfState := .failed, rfCause := .relayShortRead, rxlog := s.rxlog ++ rx }

/-- R131 (with R169): a closed connection terminates the session, and nothing else changes; outside a session the event
has no next state. -/
def Obligations.AbortFailsTheSession : Prop :=
  ∀ s : State,
    (s.rfState = .awaitReq → exec .rfAbort s = .next { s with rfState := .failed, rfCause := .connClosed }) ∧
    (s.rfState ≠ .awaitReq → ∀ t, exec .rfAbort s ≠ .next t)

/-- R128, R131, R165 ("the step does not exist"): outside AWAIT_REQ neither event has a next state. That this is a fault
of the model is the model's choice (log 7). -/
def Obligations.EventsOutsideASessionDoNotExist : Prop :=
  ∀ (rx : Bytes) (s : State), s.rfState ≠ .awaitReq →
    exec (.rfPull rx) s = .fault .pullNotEnabled ∧ exec .rfAbort s = .fault .abortNotEnabled

/-- R134 (derived in the spec): a request for 0 bytes is served by an empty data record, and the session goes on with
RF.POS as it was. -/
def Obligations.ZeroLengthPullKeepsTheSession : Prop :=
  ∀ (rtype : Byte) (s : State), s.rfState = .awaitReq →
    exec (.rfPull [rtype, 0x00, 0x00]) s =
      .next { s with
        rxlog := s.rxlog ++ [rtype, 0x00, 0x00], txlog := s.txlog ++ [s.rfTag, 0x00, 0x00, 0x00] }

/-- R135 (derived in the spec): with the whole file already sent, the next request for at least one byte sends an empty
data record and the sentinel, and the session is DONE. -/
def Obligations.PullAtEndOfFileSendsTwoEmptyRecords : Prop :=
  ∀ (rtype lo hi : Byte) (s : State), s.rfState = .awaitReq → s.rfPos.toNat = s.file.length → (lo ≠ 0 ∨ hi ≠ 0) →
    exec (.rfPull [rtype, lo, hi]) s =
      .next { s with
        rfState := .done, rxlog := s.rxlog ++ [rtype, lo, hi]
        txlog := s.txlog ++ [s.rfTag, 0x00, 0x00, 0x00] ++ [s.rfTag, 0x00, 0x00, 0x00] }

/-- R133 (`42_relay_framer.md` section 5), the table of RF.STATE and RF.CAUSE, row by column: from the phase before the
operation to the phase after it. A "-" of the table is an unchanged phase (the start is refused) or no next state (the
event is not enabled). Every operation outside the table leaves both as they are. -/
def Obligations.RelayPhaseFollowsTheTransitionTable : Prop :=
  ∀ (i : Instr) (s t : State), exec i s = .next t →
    (i = .sysReset → t.rfState = .idle ∧ t.rfCause = .none) ∧
    (isStart i = true →
      (s.rfState = .idle → s.fileOpen = true → t.rfState = .awaitReq ∧ t.rfCause = .none) ∧
      (s.rfState = .idle → s.fileOpen = false → t.rfState = .idle ∧ t.rfCause = .fileOpenFailed) ∧
      (s.rfState ≠ .idle → t.rfState = s.rfState ∧ t.rfCause = s.rfCause)) ∧
    (∀ rx req n, i = .rfPull rx → req = (requestedLength rx).toNat → n = (memRead s.file s.rfPos.toNat req).length →
      s.rfState = .awaitReq ∧
      (rx.length < 3 → t.rfState = .failed ∧ t.rfCause = .relayShortRead) ∧
      (3 ≤ rx.length → n = req → t.rfState = .awaitReq ∧ t.rfCause = s.rfCause) ∧
      (3 ≤ rx.length → n < req → t.rfState = .done ∧ t.rfCause = s.rfCause) ∧ n ≤ req) ∧
    (i = .rfAbort → s.rfState = .awaitReq ∧ t.rfState = .failed ∧ t.rfCause = .connClosed) ∧
    (isSideCommand i = true → t.rfState = s.rfState ∧ t.rfCause = s.rfCause)

/-- R170: DONE and FAILED are left only by SYS.RESET, which keeps nothing of the session; no relay event is enabled there,
nothing is sent any more, and RF.CAUSE keeps the first and only cause of the session's end. -/
def Obligations.EndedSessionIsLeftOnlyByReset : Prop :=
  ∀ (i : Instr) (s t : State), (s.rfState = .done ∨ s.rfState = .failed) → exec i s = .next t →
    (i ≠ .sysReset →
      t.rfState = s.rfState ∧ t.rfCause = s.rfCause ∧ t.rfTag = s.rfTag ∧ t.rfPos = s.rfPos ∧ t.txlog = s.txlog) ∧
    (∀ rx, i ≠ .rfPull rx) ∧ i ≠ .rfAbort ∧
    (i = .sysReset → t.rfState = .idle ∧ t.rfCause = .none ∧ t.rfTag = 0x00 ∧ t.rfPos = 0 ∧ t.txlog = [])

/-- R24 (`10_state.md` section 3): RF.TAG is written by the three starts, with the legal tags only, and by SYS.RESET; so no
operation but SYS.RESET, which ends the session (R180), changes it while RF.STATE = AWAIT_REQ (log 16). -/
def Obligations.TagIsFixedForTheSession : Prop :=
  ∀ (i : Instr) (s t : State), exec i s = .next t →
    t.rfTag = s.rfTag ∨ (i = .sysReset ∧ t.rfTag = 0x00) ∨
      (isStart i = true ∧ s.rfState = .idle ∧
        ((i.op = .rfStartBridge ∧ t.rfTag = 0x20) ∨ (i.op = .rfStartNcp ∧ t.rfTag = 0x30) ∨
          (i.op = .rfStartNode ∧ t.rfTag = 0x40)))

/-- R25 (`10_state.md` section 3): in a legal state RF.POS is never decreased but by a start or SYS.RESET, which set it to
0, and never wraps or passes the file length N in a session. -/
def Obligations.PositionNeverDecreasesNorPassesTheFile : Prop :=
  ∀ (i : Instr) (s t : State), Inv s → exec i s = .next t →
    (t.rfPos = 0 ∨ s.rfPos.toNat ≤ t.rfPos.toNat) ∧
    (i ≠ .sysReset → isStart i = false → s.rfPos.toNat ≤ t.rfPos.toNat) ∧
    (s.rfState = .awaitReq → t.rfPos.toNat ≤ s.file.length)

/-- R127 (b), R186 (`42_relay_framer.md` section 1): nothing is sent unsolicited: TXLOG grows by the header of a start in
IDLE and by the answer to a pull request in AWAIT_REQ, and by nothing else; SYS.RESET sends nothing. -/
def Obligations.NothingIsSentUnsolicited : Prop :=
  ∀ (i : Instr) (s t : State), exec i s = .next t →
    t.txlog = s.txlog ∨ (i = .sysReset ∧ t.txlog = []) ∨
      (isStart i = true ∧ s.rfState = .idle ∧ ∃ metadata, t.txlog = s.txlog ++ record t.rfTag 0x01 metadata) ∨
      (∃ rx data, i = .rfPull rx ∧ 3 ≤ rx.length ∧ s.rfState = .awaitReq ∧
        (t.txlog = s.txlog ++ record s.rfTag 0x00 data ∨
          t.txlog = s.txlog ++ record s.rfTag 0x00 data ++ [s.rfTag, 0x00, 0x00, 0x00]))

/-- R185: while a session waits, every CRC and packet-codec command, REC.ENCODE and REQ.DECODE is answered and leaves the
session, TX and RX alone; a second RF.START is refused; SYS.RESET drops the session. -/
def Obligations.SideCommandsDoNotDisturbASession : Prop :=
  ∀ (i : Instr) (s : State), s.rfState = .awaitReq →
    (isSideCommand i = true → ∃ t, exec i s = .next t ∧ t.rfState = .awaitReq ∧ t.rfTag = s.rfTag ∧
      t.rfPos = s.rfPos ∧ t.rfCause = s.rfCause ∧ t.txlog = s.txlog ∧ t.rxlog = s.rxlog) ∧
    (isStart i = true → exec i s = .next { s with reslog := s.reslog ++ [.refused .sessionNotIdle] }) ∧
    (i = .sysReset → ∃ t, exec i s = .next t ∧ t.rfState = .idle)

/-! ## Refusals, histories, environment -/

/-- R165: an operation answers `Refused(reason)` exactly under the condition the list gives, in the order of R168, and then
nothing else changes; RF.PULL and RF.ABORT are never refused. -/
def Obligations.RefusalsChangeNothing : Prop :=
  ∀ (i : Instr) (s : State) (r : Reason),
    (RefusalCondition r i s → exec i s = .next { s with reslog := s.reslog ++ [.refused r] }) ∧
    (∀ t, exec i s = .next t → t.reslog = s.reslog ++ [.refused r] →
      RefusalCondition r i s ∧ t = { s with reslog := s.reslog ++ [.refused r] }) ∧
    (∀ rx, i = .rfPull rx → ¬ RefusalCondition r i s) ∧ (i = .rfAbort → ¬ RefusalCondition r i s)

/-- R31 (`10_state.md` section 7): the histories only grow (but that SYS.RESET starts them anew, R180 (d)), and the block
cannot read them: two states that agree in the block and in FILE do the same and emit the same. -/
def Obligations.HistoriesOnlyGrowAndAreNeverRead : Prop :=
  ∀ (i : Instr) (s t s' : State), SameBlock s t → exec i s = .next s' →
    ∃ t', exec i t = .next t' ∧ SameBlock s' t' ∧
      (i ≠ .sysReset → ∃ frames sent answers rx,
        Extends s s' frames sent answers rx ∧ Extends t t' frames sent answers rx)

/-- `10_state.md` section 5 (R29), R45: no operation writes FILE, what `FileOpen()` answers, or the pending inputs: every
read of FILE gives afterwards what it gave before. The fields are the model's (log 2, log 3). -/
def Obligations.NoOperationWritesTheEnvironment : Prop :=
  ∀ (i : Instr) (s t : State), exec i s = .next t →
    (∀ addr n, memRead t.file addr n = memRead s.file addr n) ∧ t.fileOpen = s.fileOpen ∧ t.inputs = s.inputs

/-- R9, R161 (`00_scope.md` section 4): every operation is answered, in every state, but an event that is not enabled. -/
def Obligations.EveryEnabledOperationIsAnswered : Prop :=
  ∀ (i : Instr) (s : State), (i.op = .rfPull ∨ i.op = .rfAbort → s.rfState = .awaitReq) → ∃ t, exec i s = .next t

/-! ## Steps -/

/-- The step: the packet presented next, if it decodes, is executed with the inputs after it pending. -/
def Obligations.StepExecutesThePresentedPacket : Prop :=
  ∀ (s : State) (packet : Bytes) (rest : List Input) (i : Instr), s.inputs = .op packet :: rest →
    decode packet = .ok i → step s = exec i { s with inputs := rest }

/-- R78 (`30_encoding.md` section 8), R168: an OP outside the 19 of R61 is refused, whatever follows it, and nothing else
changes. -/
def Obligations.UnassignedOpIsRefused : Prop :=
  ∀ (s : State) (b : Byte) (args : Bytes) (rest : List Input), s.inputs = .op (b :: args) :: rest →
    b ∉ ([0x00, 0x10, 0x11, 0x12, 0x13, 0x20, 0x21, 0x23, 0x25, 0x26, 0x28, 0x2F, 0x30, 0x31, 0x32, 0x33, 0x34, 0x35,
      0x36] : List Byte) →
    step s = .next { s with inputs := rest, reslog := s.reslog ++ [.refused .unknownOp] }

/-- R132, R191 (log 8): with nothing presented there is no step: a stall while the framer waits, else the end of the run. -/
def Obligations.NothingPresentedIsAStallOrTheEnd : Prop :=
  ∀ s : State, s.inputs = [] →
    (s.rfState = .awaitReq → step s = .fault .stalled) ∧ (s.rfState ≠ .awaitReq → step s = .fault .endOfRun)

/-- R45, R189 (log 3, log 4): FILE and what `FileOpen()` answers change between sessions only, and leave the block alone. -/
def Obligations.FileChangesOnlyOutsideASession : Prop :=
  ∀ (s : State) (contents : Bytes) (rest : List Input),
    (s.inputs = .fileReady contents :: rest → s.rfState ≠ .awaitReq → contents.length ≤ 4294967295 →
      step s = .next { s with inputs := rest, fileOpen := true, file := contents }) ∧
    (s.inputs = .fileUnavailable :: rest → s.rfState ≠ .awaitReq →
      step s = .next { s with inputs := rest, fileOpen := false }) ∧
    (s.inputs = .fileReady contents :: rest ∨ s.inputs = .fileUnavailable :: rest → s.rfState = .awaitReq →
      step s = .fault .fileChangedInSession)

/-! ## Invariants -/

/-- The invariant holds right after reset. -/
def Obligations.ResetMeetsTheInvariant : Prop :=
  Inv State.reset

/-- R127, R23 to R26: every step keeps the invariant: N within FILE_LEN_MAX; a legal tag and cause for the phase; TXLOG one
header record, then one data record for each whole request, all with RF.TAG, their payloads concatenating to
`FILE[0 : RF.POS]` while the session waits; in DONE the sentinel last. -/
def Obligations.StepKeepsTheInvariant : Prop :=
  ∀ s t : State, Inv s → step s = .next t → Inv t

/-- R191, R127 (d), (e): the step that ends a session in DONE has handed over the whole file: TXLOG is the header, the data
records, whose payloads concatenate to FILE, and the sentinel. -/
def Obligations.DoneMeansTheWholeFileWasRelayed : Prop :=
  ∀ s t : State, Inv s → s.rfState = .awaitReq → step s = .next t → t.rfState = .done →
    t.file = s.file ∧ t.rfPos.toNat = t.file.length ∧
      Relayed t t.file [t.rfTag, 0x00, 0x00, 0x00]

/-- R137 (derived in the spec): a peer that reads 4 bytes, then as many as bytes 2 and 3 say, recovers from a session's
stream the header record and the data records as they were built. -/
def Obligations.PeerRecoversTheRecords : Prop :=
  ∀ (tag : Byte) (metadata : Bytes) (chunks : List Bytes), LegalMetadata tag metadata →
    (∀ c ∈ chunks, c.length ≤ 65535) →
    peerRecords (sessionStream tag metadata chunks) =
      some ({ tag := tag, rtype := 0x01, payload := metadata } ::
        chunks.map fun c => { tag := tag, rtype := 0x00, payload := c })

/-! ## Encodings -/

/-- R73, R74: field assembly is exact and unsigned, in both byte orders; the report number and the last flag never
collide. -/
def Obligations.FieldsAreAssembledExactly : Prop :=
  (∀ (v : Word16) (a b : Byte), v.toNat = a.toNat * 256 + b.toNat →
    be16 v = [a, b] ∧ joinBE16 a b = v ∧ le16 v = [b, a] ∧ joinLE16 b a = v) ∧
  (∀ (v : Word32) (a b c d : Byte),
    v.toNat = a.toNat * 16777216 + b.toNat * 65536 + c.toNat * 256 + d.toNat → le32 v = [d, c, b, a]) ∧
  (∀ (n : Word15) (last : Bool),
    (reportByte2 n last).toNat = n.toNat / 256 + 128 * last.toNat ∧ (reportByte3 n).toNat = n.toNat % 256)

/-- Every well-formed operation is what its packet decodes to, with every operand (the serialisation is the model's,
log 1). -/
def Obligations.DecodeInvertsEncode : Prop :=
  ∀ i : Instr, i.wf = true → decode (encode i) = .ok i

/-- Every packet that decodes is the packet of its operation, which is well formed: no packet has two readings, and no byte
of one is ignored (log 1). -/
def Obligations.EncodeInvertsDecode : Prop :=
  ∀ (packet : Bytes) (i : Instr), decode packet = .ok i → encode i = packet ∧ i.wf = true

/-- Packets written out from the OP numbers of R61 (and log 1) decode to the operations they stand for: one of each unit. -/
def Obligations.SamplePacketsDecode : Prop :=
  decode [0x00] = .ok .sysReset ∧ decode [0x11, 0x31] = .ok (.crcByte 0x31) ∧
    decode [0x13] = .ok (.crcCompute []) ∧
    decode [0x20, 0xFF, 0xA5, 0x5A, 0x7A, 0x01] = .ok (.envEncode [0x7A, 0x01] 0xFF 0xA5 0x5A) ∧
    decode [0x26, 0x7F, 0xFF, 0x01, 0xAA] = .ok (.fwReport 0x7FFF true [0xAA]) ∧
    decode [0x25, 0xAB, 0xCD, 0x01, 0x02, 0xE5, 0xCC] = .ok (.fwUpdget 0xABCD 0x0102 0xE5CC) ∧
    decode [0x35, 0x00, 0x40, 0x00] = .ok (.rfPull [0x00, 0x40, 0x00]) ∧ decode [0x36] = .ok .rfAbort

/-! ## Host side (outside the block) -/

/-- R142, R143, R145, R148, R149 (`43_host_sessions.md` section 2): delivering all the chunks of an image drives the block
to one report for each chunk number 1 to total, in order, chunk k being `FW[(k-1)*40 : min(k*40, L)]`, the last flag set on
the last report only, and transmits each in its envelope with the host's flags and counter, which counts modulo 256 from
report to report unless it counts sessions (log 19). Only when this is the session's first report, its acknowledgment is
required and does not arrive, and it is not the last, the delivery stops after that report (log 22). The block's relay
registers, TX and RES are untouched; OUTLOG gains each report and its datagram. (An image of more than 32767 chunks has
numbers no report can carry.) -/
def Obligations.DeliveringAllChunksFlagsOnlyTheLast : Prop :=
  ∀ (h : TransferSession) (s : State), h.wf → h.firmware ≠ [] → h.totalChunkCount < 32768 →
    ∀ (count : Nat) (chunks reports datagrams : List Bytes),
      count = (if h.sent = [] ∧ mayProceed h.ackArrives = false then 1 else h.totalChunkCount) →
      chunks = ((List.range count).map fun k => (h.firmware.drop (k * 40)).take 40) →
      reports = (chunks.mapIdx fun k b =>
        let body := reportBody (BitVec.ofNat 15 (k + 1)) (decide (k + 1 = h.totalChunkCount)) b
        body ++ be16 (crc16 body)) →
      datagrams = (reports.mapIdx fun k r =>
        [0x23, 0x02, h.flags0, h.flags1,
          (if h.seqAdvance = .perSession then h.seq else BitVec.ofNat 8 (h.seq.toNat + k)), 0x00, 0x00] ++ r) →
      (∀ b ∈ chunks, 1 ≤ b.length ∧ b.length ≤ 40) ∧ (count = h.totalChunkCount → chunks.flatten = h.firmware) ∧
        ∃ (h' : TransferSession) (c : CrcWord),
          deliver h { index := 1, size := h.totalChunkCount } s =
            some (h', { s with
              crc := c, outlog := s.outlog ++ (List.zipWith (fun r d => [r, d]) reports datagrams).flatten },
              if count = h.totalChunkCount then .lastSent else .unacknowledged) ∧
          h'.sent = h.sent ++ datagrams ∧ h'.wf ∧ h'.firmware = h.firmware

/-- R151, R152, R154, R156 (`43_host_sessions.md` section 3): register then unregister leaves the address out; register
replaces; other addresses are untouched; no address ever stands twice. -/
def Obligations.RegistryKeepsOneEntryPerAddress : Prop :=
  ∀ (r : Registry Nat Nat) (a b h : Nat), r.wf →
    (r.register a h).wf ∧ (r.unregister a).wf ∧ a ∉ ((r.register a h).unregister a).addresses ∧
      (r.register a h).resolve a = some h ∧
      (a ≠ b → (r.register a h).resolve b = r.resolve b ∧ (r.unregister a).resolve b = r.resolve b)

/-- R150, R157, R174 (`43_host_sessions.md` sections 3, 4): every event of the connections keeps one entry an address and a
connection, one block instance a stream, and entries only for connections that are up. A new connection is registered and
its block is the state after reset. The end of a connection takes out its entry and terminates the session its block waits
in, which then uses the stream no more. An operation or the opening or closing of the source file at one connection's block
does to that block what `exec` says, or sets port FILE. Every event leaves the entries of other addresses and the blocks of
other connections as they are (log 21). -/
def Obligations.EachConnectionHasItsOwnBlock : Prop :=
  ∀ (e : ConnectionEvent Nat Nat) (c d : Connections Nat Nat), c.wf → connectionStep e c = some d →
    d.wf ∧
    (∀ a h, e = .accept a h → c.blockOf h = none ∧ d.registry.resolve a = some h ∧ d.blockFor a = some State.reset ∧
      ∀ b, b ≠ a → d.registry.resolve b = c.registry.resolve b) ∧
    (∀ h how, e = .disconnect h how ∨ e = .close h how →
      (∀ a, c.registry.resolve a = some h → a ∉ d.registry.addresses) ∧
      (∀ a, c.registry.resolve a ≠ some h → d.registry.resolve a = c.registry.resolve a) ∧
      (∀ i, usesStream i = true → connectionStep (.operate h i) d = none) ∧
      ∃ s t, c.blockOf h = some s ∧ d.blockOf h = some t ∧ (s.rfState ≠ .awaitReq → t = s) ∧
        (s.rfState = .awaitReq → how = .forced → t = { s with rfState := .failed, rfCause := .connClosed }) ∧
        (s.rfState = .awaitReq → how = .emptyRead → t = { s with rfState := .failed, rfCause := .relayShortRead })) ∧
    (∀ h i, e = .operate h i → d.registry = c.registry ∧
      ∃ s t, c.blockOf h = some s ∧ exec i s = .next t ∧ d.blockOf h = some t) ∧
    (∀ h contents, e = .fileReady h contents → d.registry = c.registry ∧
      ∃ s, c.blockOf h = some s ∧ s.rfState ≠ .awaitReq ∧
        d.blockOf h = some { s with fileOpen := true, file := contents }) ∧
    (∀ h, e = .fileUnavailable h → d.registry = c.registry ∧
      ∃ s, c.blockOf h = some s ∧ s.rfState ≠ .awaitReq ∧ d.blockOf h = some { s with fileOpen := false }) ∧
    (∀ h, h ≠ e.handle → d.blockOf h = c.blockOf h)
end

