-- ==== Sys2Proof/Laws/Fields.lean ====
section
/-! SUPPORT. Laws.Fields: splitting a field and assembling it are inverse, and the lengths of what is built. -/

namespace Sys2Proof.Machine

@[simp] theorem joinBE16_hi8_lo8 (v : Word16) : joinBE16 (hi8 v) (lo8 v) = v := by
  apply BitVec.eq_of_toNat_eq
  have := v.isLt
  simp only [joinBE16, hi8, lo8, BitVec.toNat_append, BitVec.extractLsb'_toNat, Nat.shiftRight_zero]
  rw [Nat.shiftLeft_eq, Nat.shiftRight_eq_div_pow, ← Nat.shiftLeft_eq, ← Nat.shiftLeft_add_eq_or_of_lt (by omega),
    Nat.shiftLeft_eq]
  omega

@[simp] theorem joinLE16_lo8_hi8 (v : Word16) : joinLE16 (lo8 v) (hi8 v) = v :=
  joinBE16_hi8_lo8 v

/-- `first*256 + second` (R73). -/
theorem joinBE16_toNat (a b : Byte) : (joinBE16 a b).toNat = a.toNat * 256 + b.toNat := by
  have := b.isLt
  simp only [joinBE16, BitVec.toNat_append]
  rw [← Nat.shiftLeft_add_eq_or_of_lt (by omega), Nat.shiftLeft_eq]

/-- `first + 256*second` (R73). -/
theorem joinLE16_toNat (a b : Byte) : (joinLE16 a b).toNat = a.toNat + 256 * b.toNat := by
  have := joinBE16_toNat b a
  simp only [joinBE16, joinLE16] at *
  omega

theorem hi8_toNat (v : Word16) : (hi8 v).toNat = v.toNat / 256 := by
  have := v.isLt
  simp only [hi8, BitVec.extractLsb'_toNat, Nat.shiftRight_eq_div_pow]
  omega

theorem lo8_toNat (v : Word16) : (lo8 v).toNat = v.toNat % 256 := by
  simp [lo8]

@[simp] theorem hi8_joinBE16 (a b : Byte) : hi8 (joinBE16 a b) = a := by
  apply BitVec.eq_of_toNat_eq
  have := b.isLt
  rw [hi8_toNat, joinBE16_toNat]
  omega

@[simp] theorem lo8_joinBE16 (a b : Byte) : lo8 (joinBE16 a b) = b := by
  apply BitVec.eq_of_toNat_eq
  have := b.isLt
  rw [lo8_toNat, joinBE16_toNat]
  omega

theorem joinBE32_toNat (a b c d : Byte) :
    (joinBE32 a b c d).toNat = a.toNat * 2 ^ 24 + b.toNat * 2 ^ 16 + c.toNat * 2 ^ 8 + d.toNat := by
  have h1 := joinBE16_toNat a b
  have h2 := joinBE16_toNat c d
  have h3 : (joinBE16 c d).toNat < 2 ^ 16 := (joinBE16 c d).isLt
  have h4 : (joinBE32 a b c d).toNat = (joinBE16 a b).toNat <<< 16 ||| (joinBE16 c d).toNat := rfl
  rw [h4, ← Nat.shiftLeft_add_eq_or_of_lt h3, Nat.shiftLeft_eq]
  omega

@[simp] theorem joinBE32_be32 (v : Word32) :
    joinBE32 (v.extractLsb' 24 8) (v.extractLsb' 16 8) (v.extractLsb' 8 8) (v.extractLsb' 0 8) = v := by
  apply BitVec.eq_of_toNat_eq
  have := v.isLt
  rw [joinBE32_toNat]
  simp only [BitVec.extractLsb'_toNat, Nat.shiftRight_eq_div_pow]
  omega

theorem be32_joinBE32 (a b c d : Byte) : be32 (joinBE32 a b c d) = [a, b, c, d] := by
  have ha := a.isLt
  have hb := b.isLt
  have hc := c.isLt
  have hd := d.isLt
  simp only [be32, List.cons.injEq, and_true]
  refine ⟨?_, ?_, ?_, ?_⟩ <;> apply BitVec.eq_of_toNat_eq <;>
    simp only [BitVec.extractLsb'_toNat, Nat.shiftRight_eq_div_pow, joinBE32_toNat] <;> omega

theorem be16_joinBE16 (a b : Byte) : be16 (joinBE16 a b) = [a, b] := by
  simp [be16]

/-- `(n >> 8) OR (last << 7)` is a sum: the report number has 15 bits (R74). -/
theorem reportByte2_toNat (n : Word15) (last : Bool) :
    (reportByte2 n last).toNat = n.toNat / 256 + 128 * last.toNat := by
  have := n.isLt
  have h : n.toNat / 256 < 2 ^ 7 := by omega
  cases last
  · simp only [reportByte2, boolByte, BitVec.toNat_or, BitVec.toNat_setWidth, BitVec.toNat_ushiftRight,
      BitVec.toNat_shiftLeft, BitVec.toNat_ofBool, Bool.toNat_false, Nat.shiftRight_eq_div_pow]
    simp
    omega
  · have e : n.toNat / 256 ||| 128 = 2 ^ 7 * 1 + n.toNat / 256 := by
      rw [Nat.two_pow_add_eq_or_of_lt h]
      rw [Nat.or_comm]
    simp only [reportByte2, boolByte, BitVec.toNat_or, BitVec.toNat_setWidth, BitVec.toNat_ushiftRight,
      BitVec.toNat_shiftLeft, BitVec.toNat_ofBool, Bool.toNat_true, Nat.shiftRight_eq_div_pow]
    rw [Nat.mod_eq_of_lt (by omega)]
    simp only [Nat.reducePow, Nat.reduceMod, Nat.reduceShiftLeft]
    omega

theorem reportByte3_toNat (n : Word15) : (reportByte3 n).toNat = n.toNat % 256 := by
  have h : (n &&& 0xFF).toNat = n.toNat % 256 := Nat.and_two_pow_sub_one_eq_mod n.toNat 8
  rw [reportByte3, BitVec.toNat_setWidth, h]
  omega

@[simp] theorem record_length (tag rtype : Byte) (payload : Bytes) :
    (record tag rtype payload).length = 4 + payload.length := by
  simp [record, le16]
  omega

/-- The exact number of bytes a read of FILE returns (R45). -/
@[simp] theorem memRead_length (file : Bytes) (addr n : Nat) :
    (memRead file addr n).length = min n (file.length - addr) := by
  simp [memRead]

/-- A read continues the part of FILE before it. -/
theorem take_append_memRead (file : Bytes) (addr n : Nat) :
    file.take addr ++ memRead file addr n = file.take (addr + (memRead file addr n).length) := by
  rw [memRead_length, List.take_add, memRead]
  congr 1
  rw [List.take_eq_take_iff]
  simp

/-- The two length bytes and the payload of a record. -/
theorem record_eq (tag rtype : Byte) (payload : Bytes) :
    record tag rtype payload =
      tag :: rtype :: lo8 (BitVec.ofNat 16 payload.length) :: hi8 (BitVec.ofNat 16 payload.length) :: payload := by
  simp [record, le16]

end Sys2Proof.Machine
end

