-- ==== Sys2Proof/Laws/State.lean ====
section
/-! SUPPORT. Laws.State: what each named update does to each field, true by definition. -/

namespace Sys2Proof.Machine

variable (s : State)

/-! `setCrc` -/

@[simp] theorem State.setCrc_crc (v : Word16) : (s.setCrc v).crc = v := rfl
@[simp] theorem State.setCrc_rfState (v : Word16) : (s.setCrc v).rfState = s.rfState := rfl
@[simp] theorem State.setCrc_rfTag (v : Word16) : (s.setCrc v).rfTag = s.rfTag := rfl
@[simp] theorem State.setCrc_rfPos (v : Word16) : (s.setCrc v).rfPos = s.rfPos := rfl
@[simp] theorem State.setCrc_rfCause (v : Word16) : (s.setCrc v).rfCause = s.rfCause := rfl
@[simp] theorem State.setCrc_outlog (v : Word16) : (s.setCrc v).outlog = s.outlog := rfl
@[simp] theorem State.setCrc_txlog (v : Word16) : (s.setCrc v).txlog = s.txlog := rfl
@[simp] theorem State.setCrc_reslog (v : Word16) : (s.setCrc v).reslog = s.reslog := rfl
@[simp] theorem State.setCrc_rxlog (v : Word16) : (s.setCrc v).rxlog = s.rxlog := rfl
@[simp] theorem State.setCrc_fileOpen (v : Word16) : (s.setCrc v).fileOpen = s.fileOpen := rfl
@[simp] theorem State.setCrc_file (v : Word16) : (s.setCrc v).file = s.file := rfl
@[simp] theorem State.setCrc_inputs (v : Word16) : (s.setCrc v).inputs = s.inputs := rfl

/-! `setRfState` -/

@[simp] theorem State.setRfState_crc (v : RfState) : (s.setRfState v).crc = s.crc := rfl
@[simp] theorem State.setRfState_rfState (v : RfState) : (s.setRfState v).rfState = v := rfl
@[simp] theorem State.setRfState_rfTag (v : RfState) : (s.setRfState v).rfTag = s.rfTag := rfl
@[simp] theorem State.setRfState_rfPos (v : RfState) : (s.setRfState v).rfPos = s.rfPos := rfl
@[simp] theorem State.setRfState_rfCause (v : RfState) : (s.setRfState v).rfCause = s.rfCause := rfl
@[simp] theorem State.setRfState_outlog (v : RfState) : (s.setRfState v).outlog = s.outlog := rfl
@[simp] theorem State.setRfState_txlog (v : RfState) : (s.setRfState v).txlog = s.txlog := rfl
@[simp] theorem State.setRfState_reslog (v : RfState) : (s.setRfState v).reslog = s.reslog := rfl
@[simp] theorem State.setRfState_rxlog (v : RfState) : (s.setRfState v).rxlog = s.rxlog := rfl
@[simp] theorem State.setRfState_fileOpen (v : RfState) : (s.setRfState v).fileOpen = s.fileOpen := rfl
@[simp] theorem State.setRfState_file (v : RfState) : (s.setRfState v).file = s.file := rfl
@[simp] theorem State.setRfState_inputs (v : RfState) : (s.setRfState v).inputs = s.inputs := rfl

/-! `setRfTag` -/

@[simp] theorem State.setRfTag_crc (v : Byte) : (s.setRfTag v).crc = s.crc := rfl
@[simp] theorem State.setRfTag_rfState (v : Byte) : (s.setRfTag v).rfState = s.rfState := rfl
@[simp] theorem State.setRfTag_rfTag (v : Byte) : (s.setRfTag v).rfTag = v := rfl
@[simp] theorem State.setRfTag_rfPos (v : Byte) : (s.setRfTag v).rfPos = s.rfPos := rfl
@[simp] theorem State.setRfTag_rfCause (v : Byte) : (s.setRfTag v).rfCause = s.rfCause := rfl
@[simp] theorem State.setRfTag_outlog (v : Byte) : (s.setRfTag v).outlog = s.outlog := rfl
@[simp] theorem State.setRfTag_txlog (v : Byte) : (s.setRfTag v).txlog = s.txlog := rfl
@[simp] theorem State.setRfTag_reslog (v : Byte) : (s.setRfTag v).reslog = s.reslog := rfl
@[simp] theorem State.setRfTag_rxlog (v : Byte) : (s.setRfTag v).rxlog = s.rxlog := rfl
@[simp] theorem State.setRfTag_fileOpen (v : Byte) : (s.setRfTag v).fileOpen = s.fileOpen := rfl
@[simp] theorem State.setRfTag_file (v : Byte) : (s.setRfTag v).file = s.file := rfl
@[simp] theorem State.setRfTag_inputs (v : Byte) : (s.setRfTag v).inputs = s.inputs := rfl

/-! `setRfPos` -/

@[simp] theorem State.setRfPos_crc (v : Word32) : (s.setRfPos v).crc = s.crc := rfl
@[simp] theorem State.setRfPos_rfState (v : Word32) : (s.setRfPos v).rfState = s.rfState := rfl
@[simp] theorem State.setRfPos_rfTag (v : Word32) : (s.setRfPos v).rfTag = s.rfTag := rfl
@[simp] theorem State.setRfPos_rfPos (v : Word32) : (s.setRfPos v).rfPos = v := rfl
@[simp] theorem State.setRfPos_rfCause (v : Word32) : (s.setRfPos v).rfCause = s.rfCause := rfl
@[simp] theorem State.setRfPos_outlog (v : Word32) : (s.setRfPos v).outlog = s.outlog := rfl
@[simp] theorem State.setRfPos_txlog (v : Word32) : (s.setRfPos v).txlog = s.txlog := rfl
@[simp] theorem State.setRfPos_reslog (v : Word32) : (s.setRfPos v).reslog = s.reslog := rfl
@[simp] theorem State.setRfPos_rxlog (v : Word32) : (s.setRfPos v).rxlog = s.rxlog := rfl
@[simp] theorem State.setRfPos_fileOpen (v : Word32) : (s.setRfPos v).fileOpen = s.fileOpen := rfl
@[simp] theorem State.setRfPos_file (v : Word32) : (s.setRfPos v).file = s.file := rfl
@[simp] theorem State.setRfPos_inputs (v : Word32) : (s.setRfPos v).inputs = s.inputs := rfl

/-! `setRfCause` -/

@[simp] theorem State.setRfCause_crc (v : Cause) : (s.setRfCause v).crc = s.crc := rfl
@[simp] theorem State.setRfCause_rfState (v : Cause) : (s.setRfCause v).rfState = s.rfState := rfl
@[simp] theorem State.setRfCause_rfTag (v : Cause) : (s.setRfCause v).rfTag = s.rfTag := rfl
@[simp] theorem State.setRfCause_rfPos (v : Cause) : (s.setRfCause v).rfPos = s.rfPos := rfl
@[simp] theorem State.setRfCause_rfCause (v : Cause) : (s.setRfCause v).rfCause = v := rfl
@[simp] theorem State.setRfCause_outlog (v : Cause) : (s.setRfCause v).outlog = s.outlog := rfl
@[simp] theorem State.setRfCause_txlog (v : Cause) : (s.setRfCause v).txlog = s.txlog := rfl
@[simp] theorem State.setRfCause_reslog (v : Cause) : (s.setRfCause v).reslog = s.reslog := rfl
@[simp] theorem State.setRfCause_rxlog (v : Cause) : (s.setRfCause v).rxlog = s.rxlog := rfl
@[simp] theorem State.setRfCause_fileOpen (v : Cause) : (s.setRfCause v).fileOpen = s.fileOpen := rfl
@[simp] theorem State.setRfCause_file (v : Cause) : (s.setRfCause v).file = s.file := rfl
@[simp] theorem State.setRfCause_inputs (v : Cause) : (s.setRfCause v).inputs = s.inputs := rfl

/-! `out` -/

@[simp] theorem State.out_crc (f : Bytes) : (s.out f).crc = s.crc := rfl
@[simp] theorem State.out_rfState (f : Bytes) : (s.out f).rfState = s.rfState := rfl
@[simp] theorem State.out_rfTag (f : Bytes) : (s.out f).rfTag = s.rfTag := rfl
@[simp] theorem State.out_rfPos (f : Bytes) : (s.out f).rfPos = s.rfPos := rfl
@[simp] theorem State.out_rfCause (f : Bytes) : (s.out f).rfCause = s.rfCause := rfl
@[simp] theorem State.out_outlog (f : Bytes) : (s.out f).outlog = s.outlog ++ [f] := rfl
@[simp] theorem State.out_txlog (f : Bytes) : (s.out f).txlog = s.txlog := rfl
@[simp] theorem State.out_reslog (f : Bytes) : (s.out f).reslog = s.reslog := rfl
@[simp] theorem State.out_rxlog (f : Bytes) : (s.out f).rxlog = s.rxlog := rfl
@[simp] theorem State.out_fileOpen (f : Bytes) : (s.out f).fileOpen = s.fileOpen := rfl
@[simp] theorem State.out_file (f : Bytes) : (s.out f).file = s.file := rfl
@[simp] theorem State.out_inputs (f : Bytes) : (s.out f).inputs = s.inputs := rfl

/-! `tx` -/

@[simp] theorem State.tx_crc (b : Bytes) : (s.tx b).crc = s.crc := rfl
@[simp] theorem State.tx_rfState (b : Bytes) : (s.tx b).rfState = s.rfState := rfl
@[simp] theorem State.tx_rfTag (b : Bytes) : (s.tx b).rfTag = s.rfTag := rfl
@[simp] theorem State.tx_rfPos (b : Bytes) : (s.tx b).rfPos = s.rfPos := rfl
@[simp] theorem State.tx_rfCause (b : Bytes) : (s.tx b).rfCause = s.rfCause := rfl
@[simp] theorem State.tx_outlog (b : Bytes) : (s.tx b).outlog = s.outlog := rfl
@[simp] theorem State.tx_txlog (b : Bytes) : (s.tx b).txlog = s.txlog ++ b := rfl
@[simp] theorem State.tx_reslog (b : Bytes) : (s.tx b).reslog = s.reslog := rfl
@[simp] theorem State.tx_rxlog (b : Bytes) : (s.tx b).rxlog = s.rxlog := rfl
@[simp] theorem State.tx_fileOpen (b : Bytes) : (s.tx b).fileOpen = s.fileOpen := rfl
@[simp] theorem State.tx_file (b : Bytes) : (s.tx b).file = s.file := rfl
@[simp] theorem State.tx_inputs (b : Bytes) : (s.tx b).inputs = s.inputs := rfl

/-! `respond` -/

@[simp] theorem State.respond_crc (v : Res) : (s.respond v).crc = s.crc := rfl
@[simp] theorem State.respond_rfState (v : Res) : (s.respond v).rfState = s.rfState := rfl
@[simp] theorem State.respond_rfTag (v : Res) : (s.respond v).rfTag = s.rfTag := rfl
@[simp] theorem State.respond_rfPos (v : Res) : (s.respond v).rfPos = s.rfPos := rfl
@[simp] theorem State.respond_rfCause (v : Res) : (s.respond v).rfCause = s.rfCause := rfl
@[simp] theorem State.respond_outlog (v : Res) : (s.respond v).outlog = s.outlog := rfl
@[simp] theorem State.respond_txlog (v : Res) : (s.respond v).txlog = s.txlog := rfl
@[simp] theorem State.respond_reslog (v : Res) : (s.respond v).reslog = s.reslog ++ [v] := rfl
@[simp] theorem State.respond_rxlog (v : Res) : (s.respond v).rxlog = s.rxlog := rfl
@[simp] theorem State.respond_fileOpen (v : Res) : (s.respond v).fileOpen = s.fileOpen := rfl
@[simp] theorem State.respond_file (v : Res) : (s.respond v).file = s.file := rfl
@[simp] theorem State.respond_inputs (v : Res) : (s.respond v).inputs = s.inputs := rfl

/-! `consumeRx` -/

@[simp] theorem State.consumeRx_crc (rx : Bytes) : (s.consumeRx rx).crc = s.crc := rfl
@[simp] theorem State.consumeRx_rfState (rx : Bytes) : (s.consumeRx rx).rfState = s.rfState := rfl
@[simp] theorem State.consumeRx_rfTag (rx : Bytes) : (s.consumeRx rx).rfTag = s.rfTag := rfl
@[simp] theorem State.consumeRx_rfPos (rx : Bytes) : (s.consumeRx rx).rfPos = s.rfPos := rfl
@[simp] theorem State.consumeRx_rfCause (rx : Bytes) : (s.consumeRx rx).rfCause = s.rfCause := rfl
@[simp] theorem State.consumeRx_outlog (rx : Bytes) : (s.consumeRx rx).outlog = s.outlog := rfl
@[simp] theorem State.consumeRx_txlog (rx : Bytes) : (s.consumeRx rx).txlog = s.txlog := rfl
@[simp] theorem State.consumeRx_reslog (rx : Bytes) : (s.consumeRx rx).reslog = s.reslog := rfl
@[simp] theorem State.consumeRx_rxlog (rx : Bytes) : (s.consumeRx rx).rxlog = s.rxlog ++ rx := rfl
@[simp] theorem State.consumeRx_fileOpen (rx : Bytes) : (s.consumeRx rx).fileOpen = s.fileOpen := rfl
@[simp] theorem State.consumeRx_file (rx : Bytes) : (s.consumeRx rx).file = s.file := rfl
@[simp] theorem State.consumeRx_inputs (rx : Bytes) : (s.consumeRx rx).inputs = s.inputs := rfl

/-! `setInputs` -/

@[simp] theorem State.setInputs_crc (l : List Input) : (s.setInputs l).crc = s.crc := rfl
@[simp] theorem State.setInputs_rfState (l : List Input) : (s.setInputs l).rfState = s.rfState := rfl
@[simp] theorem State.setInputs_rfTag (l : List Input) : (s.setInputs l).rfTag = s.rfTag := rfl
@[simp] theorem State.setInputs_rfPos (l : List Input) : (s.setInputs l).rfPos = s.rfPos := rfl
@[simp] theorem State.setInputs_rfCause (l : List Input) : (s.setInputs l).rfCause = s.rfCause := rfl
@[simp] theorem State.setInputs_outlog (l : List Input) : (s.setInputs l).outlog = s.outlog := rfl
@[simp] theorem State.setInputs_txlog (l : List Input) : (s.setInputs l).txlog = s.txlog := rfl
@[simp] theorem State.setInputs_reslog (l : List Input) : (s.setInputs l).reslog = s.reslog := rfl
@[simp] theorem State.setInputs_rxlog (l : List Input) : (s.setInputs l).rxlog = s.rxlog := rfl
@[simp] theorem State.setInputs_fileOpen (l : List Input) : (s.setInputs l).fileOpen = s.fileOpen := rfl
@[simp] theorem State.setInputs_file (l : List Input) : (s.setInputs l).file = s.file := rfl
@[simp] theorem State.setInputs_inputs (l : List Input) : (s.setInputs l).inputs = l := rfl

/-! `setFile` -/

@[simp] theorem State.setFile_crc (o : Bool) (c : Bytes) : (s.setFile o c).crc = s.crc := rfl
@[simp] theorem State.setFile_rfState (o : Bool) (c : Bytes) : (s.setFile o c).rfState = s.rfState := rfl
@[simp] theorem State.setFile_rfTag (o : Bool) (c : Bytes) : (s.setFile o c).rfTag = s.rfTag := rfl
@[simp] theorem State.setFile_rfPos (o : Bool) (c : Bytes) : (s.setFile o c).rfPos = s.rfPos := rfl
@[simp] theorem State.setFile_rfCause (o : Bool) (c : Bytes) : (s.setFile o c).rfCause = s.rfCause := rfl
@[simp] theorem State.setFile_outlog (o : Bool) (c : Bytes) : (s.setFile o c).outlog = s.outlog := rfl
@[simp] theorem State.setFile_txlog (o : Bool) (c : Bytes) : (s.setFile o c).txlog = s.txlog := rfl
@[simp] theorem State.setFile_reslog (o : Bool) (c : Bytes) : (s.setFile o c).reslog = s.reslog := rfl
@[simp] theorem State.setFile_rxlog (o : Bool) (c : Bytes) : (s.setFile o c).rxlog = s.rxlog := rfl
@[simp] theorem State.setFile_fileOpen (o : Bool) (c : Bytes) : (s.setFile o c).fileOpen = o := rfl
@[simp] theorem State.setFile_file (o : Bool) (c : Bytes) : (s.setFile o c).file = c := rfl
@[simp] theorem State.setFile_inputs (o : Bool) (c : Bytes) : (s.setFile o c).inputs = s.inputs := rfl

/-! `clearHistories` -/

@[simp] theorem State.clearHistories_crc : (s.clearHistories).crc = s.crc := rfl
@[simp] theorem State.clearHistories_rfState : (s.clearHistories).rfState = s.rfState := rfl
@[simp] theorem State.clearHistories_rfTag : (s.clearHistories).rfTag = s.rfTag := rfl
@[simp] theorem State.clearHistories_rfPos : (s.clearHistories).rfPos = s.rfPos := rfl
@[simp] theorem State.clearHistories_rfCause : (s.clearHistories).rfCause = s.rfCause := rfl
@[simp] theorem State.clearHistories_outlog : (s.clearHistories).outlog = [] := rfl
@[simp] theorem State.clearHistories_txlog : (s.clearHistories).txlog = [] := rfl
@[simp] theorem State.clearHistories_reslog : (s.clearHistories).reslog = [] := rfl
@[simp] theorem State.clearHistories_rxlog : (s.clearHistories).rxlog = [] := rfl
@[simp] theorem State.clearHistories_fileOpen : (s.clearHistories).fileOpen = s.fileOpen := rfl
@[simp] theorem State.clearHistories_file : (s.clearHistories).file = s.file := rfl
@[simp] theorem State.clearHistories_inputs : (s.clearHistories).inputs = s.inputs := rfl

/-! `refuse` -/

@[simp] theorem State.refuse_crc (r : Reason) : (s.refuse r).crc = s.crc := rfl
@[simp] theorem State.refuse_rfState (r : Reason) : (s.refuse r).rfState = s.rfState := rfl
@[simp] theorem State.refuse_rfTag (r : Reason) : (s.refuse r).rfTag = s.rfTag := rfl
@[simp] theorem State.refuse_rfPos (r : Reason) : (s.refuse r).rfPos = s.rfPos := rfl
@[simp] theorem State.refuse_rfCause (r : Reason) : (s.refuse r).rfCause = s.rfCause := rfl
@[simp] theorem State.refuse_outlog (r : Reason) : (s.refuse r).outlog = s.outlog := rfl
@[simp] theorem State.refuse_txlog (r : Reason) : (s.refuse r).txlog = s.txlog := rfl
@[simp] theorem State.refuse_reslog (r : Reason) : (s.refuse r).reslog = s.reslog ++ [.refused r] := rfl
@[simp] theorem State.refuse_rxlog (r : Reason) : (s.refuse r).rxlog = s.rxlog := rfl
@[simp] theorem State.refuse_fileOpen (r : Reason) : (s.refuse r).fileOpen = s.fileOpen := rfl
@[simp] theorem State.refuse_file (r : Reason) : (s.refuse r).file = s.file := rfl
@[simp] theorem State.refuse_inputs (r : Reason) : (s.refuse r).inputs = s.inputs := rfl

/-! `resetRegisters` -/

@[simp] theorem State.resetRegisters_crc : (s.resetRegisters).crc = crcInitial := rfl
@[simp] theorem State.resetRegisters_rfState : (s.resetRegisters).rfState = .idle := rfl
@[simp] theorem State.resetRegisters_rfTag : (s.resetRegisters).rfTag = 0 := rfl
@[simp] theorem State.resetRegisters_rfPos : (s.resetRegisters).rfPos = 0 := rfl
@[simp] theorem State.resetRegisters_rfCause : (s.resetRegisters).rfCause = .none := rfl
@[simp] theorem State.resetRegisters_outlog : (s.resetRegisters).outlog = s.outlog := rfl
@[simp] theorem State.resetRegisters_txlog : (s.resetRegisters).txlog = s.txlog := rfl
@[simp] theorem State.resetRegisters_reslog : (s.resetRegisters).reslog = s.reslog := rfl
@[simp] theorem State.resetRegisters_rxlog : (s.resetRegisters).rxlog = s.rxlog := rfl
@[simp] theorem State.resetRegisters_fileOpen : (s.resetRegisters).fileOpen = s.fileOpen := rfl
@[simp] theorem State.resetRegisters_file : (s.resetRegisters).file = s.file := rfl
@[simp] theorem State.resetRegisters_inputs : (s.resetRegisters).inputs = s.inputs := rfl

end Sys2Proof.Machine
end

