-- ==== Sys2Proof/Laws/Codec.lean ====
section
/-! SUPPORT. Laws.Codec: everything each marshaller with checks can do, with numerals in place of the constants. -/

namespace Sys2Proof.Machine

/-- An envelope has its header and the payload (R62). -/
@[simp] theorem envelopeFrame_length (payload : Bytes) (seq flags0 flags1 : Byte) :
    (envelopeFrame payload seq flags0 flags1).length = envHdrLen + payload.length := by
  simp [envelopeFrame, envHdrLen]
  omega

/-- Everything FW.REPORT can do (R106). -/
theorem execFwReport_cases (n : Word15) (last : Bool) (chunk : Bytes) (s : State) :
    (40 < chunk.length ∧
      execFwReport n last chunk s = .next { s with reslog := s.reslog ++ [.refused .chunkTooLong] }) ∨
    (chunk.length ≤ 40 ∧
      execFwReport n last chunk s =
        .next { s with
          crc := crc16 (reportBody n last chunk)
          outlog := s.outlog ++ [reportBody n last chunk ++ be16 (crc16 (reportBody n last chunk))] }) := by
  unfold execFwReport
  split
  · exact .inl ⟨‹_›, rfl⟩
  · exact .inr ⟨by simpa [chunkSize] using ‹¬ chunk.length > chunkSize›, by simp only [State.setCrc, State.out]⟩

/-- Everything REC.ENCODE can do (R121). -/
theorem execRecEncode_cases (tag rtype : Byte) (payload : Bytes) (s : State) :
    (tagOk tag = false ∧
      execRecEncode tag rtype payload s = .next { s with reslog := s.reslog ++ [.refused .badTag] }) ∨
    (tagOk tag = true ∧ recordTypeOk rtype = false ∧
      execRecEncode tag rtype payload s = .next { s with reslog := s.reslog ++ [.refused .badRecordType] }) ∨
    (tagOk tag = true ∧ recordTypeOk rtype = true ∧ 65535 < payload.length ∧
      execRecEncode tag rtype payload s = .next { s with reslog := s.reslog ++ [.refused .payloadTooLong] }) ∨
    (tagOk tag = true ∧ recordTypeOk rtype = true ∧ payload.length ≤ 65535 ∧
      execRecEncode tag rtype payload s = .next { s with outlog := s.outlog ++ [record tag rtype payload] }) := by
  unfold execRecEncode
  split
  · exact .inl ⟨‹_›, rfl⟩
  · have ht : tagOk tag = true := by simpa using ‹¬ tagOk tag = false›
    split
    · exact .inr (.inl ⟨ht, ‹_›, rfl⟩)
    · have hr : recordTypeOk rtype = true := by simpa using ‹¬ recordTypeOk rtype = false›
      split
      · have hl : 65535 < payload.length := by simpa [recLenMax] using ‹payload.length > recLenMax›
        exact .inr (.inr (.inl ⟨ht, hr, hl, rfl⟩))
      · have hl : payload.length ≤ 65535 := by simpa [recLenMax] using ‹¬ payload.length > recLenMax›
        exact .inr (.inr (.inr ⟨ht, hr, hl, rfl⟩))

/-- Everything REQ.DECODE can do (R122). -/
theorem execReqDecode_cases (rx : Bytes) (s : State) :
    (3 < rx.length ∧
      execReqDecode rx s = .next { s with reslog := s.reslog ++ [.refused .badRequestLength] }) ∨
    (rx.length < 3 ∧
      execReqDecode rx s = .next { s with reslog := s.reslog ++ [.err .relayShortRead rx.length] }) ∨
    (∃ rtype lo hi, rx = [rtype, lo, hi] ∧
      execReqDecode rx s = .next { s with reslog := s.reslog ++ [.req rtype (joinLE16 lo hi)] }) := by
  unfold execReqDecode
  split
  · exact .inl ⟨‹_›, rfl⟩
  · split
    · exact .inr (.inl ⟨‹_›, rfl⟩)
    · obtain ⟨a, b, c, rfl⟩ : ∃ a b c, rx = [a, b, c] := by
        rw [← List.length_eq_three]
        simp only [pullReqLen] at *
        omega
      exact .inr (.inr ⟨a, b, c, rfl, rfl⟩)

/-- The three legal tags, written out (R77). -/
theorem tagOk_iff (tag : Byte) : tagOk tag = true ↔ tag ∈ ([0x20, 0x30, 0x40] : List Byte) := by
  simp [tagOk, tagBridge, tagNcp, tagNode, or_assoc]

/-- The two legal record types, written out (R77). -/
theorem recordTypeOk_iff (rtype : Byte) : recordTypeOk rtype = true ↔ rtype ∈ ([0x00, 0x01] : List Byte) := by
  simp [recordTypeOk, rtData, rtHeader]

end Sys2Proof.Machine
end

