-- ==== Sys2Proof/Laws/Ops.lean ====
section
/-! SUPPORT. Laws.Ops: one lemma for each shared operation of the relay framer that says all it can do. -/

namespace Sys2Proof.Machine

/-- Entry to FAILED without an answer on RES (R169). -/
theorem State.raise_hidden (s : State) (cause : Cause) (info : Nat) :
    s.raise cause info false = { s with rfCause := cause, rfState := .failed } := rfl

/-- Entry to FAILED with its answer on RES (R169). -/
theorem State.raise_visible (s : State) (cause : Cause) (info : Nat) :
    s.raise cause info true =
      { s with rfCause := cause, rfState := .failed, reslog := s.reslog ++ [.err cause info] } := rfl

/-- Everything a start of a session can do (R123). -/
theorem startSession_cases (tag : Byte) (metadata : Bytes) (s : State) :
    (s.rfState ≠ .idle ∧ startSession tag metadata s = { s with reslog := s.reslog ++ [.refused .sessionNotIdle] }) ∨
    (s.rfState = .idle ∧ s.fileOpen = false ∧
      startSession tag metadata s =
        { s with rfCause := .fileOpenFailed, reslog := s.reslog ++ [.err .fileOpenFailed 0] }) ∨
    (s.rfState = .idle ∧ s.fileOpen = true ∧
      startSession tag metadata s =
        { s with
          rfTag := tag, rfPos := 0, rfCause := .none, rfState := .awaitReq
          txlog := s.txlog ++ record tag rtHeader metadata, reslog := s.reslog ++ [.ok] }) := by
  unfold startSession
  split
  · exact .inl ⟨‹_›, rfl⟩
  · split
    · exact .inr (.inl ⟨not_not.mp ‹_›, ‹_›, rfl⟩)
    · exact .inr (.inr ⟨not_not.mp ‹_›, by simpa using ‹¬ s.fileOpen = false›, rfl⟩)

/-- Everything the service of a pull request can do (R128): a full read, or a short one with the sentinel. -/
theorem servePull_cases (req : Word16) (s : State) :
    let data := memRead s.file s.rfPos.toNat req.toNat
    (req.toNat ≤ data.length ∧
      servePull req s =
        { s with
          rfPos := s.rfPos + BitVec.ofNat 32 data.length
          txlog := s.txlog ++ record s.rfTag rtData data }) ∨
    (data.length < req.toNat ∧
      servePull req s =
        { s with
          rfPos := s.rfPos + BitVec.ofNat 32 data.length, rfState := .done
          txlog := s.txlog ++ record s.rfTag rtData data ++ record s.rfTag rtData [] }) := by
  intro data
  by_cases h : data.length < req.toNat
  · exact .inr ⟨h, by simp only [servePull]; rw [if_pos h]; rfl⟩
  · exact .inl ⟨by omega, by simp only [servePull]; rw [if_neg h]; rfl⟩

/-- Everything RF.PULL can do (R128): not enabled, a fatal short read, or a service. -/
theorem execRfPull_cases (rx : Bytes) (s : State) :
    (s.rfState ≠ .awaitReq ∧ execRfPull rx s = .fault .pullNotEnabled) ∨
    (s.rfState = .awaitReq ∧ rx.length < 3 ∧
      execRfPull rx s =
        .next { s with rxlog := s.rxlog ++ rx, rfCause := .relayShortRead, rfState := .failed }) ∨
    (s.rfState = .awaitReq ∧ 3 ≤ rx.length ∧
      execRfPull rx s = .next (servePull (requestedLength rx) { s with rxlog := s.rxlog ++ rx })) := by
  unfold execRfPull
  split
  · exact .inl ⟨‹_›, rfl⟩
  · split
    · exact .inr (.inl ⟨not_not.mp ‹_›, ‹_›, rfl⟩)
    · exact .inr (.inr ⟨not_not.mp ‹_›, by simpa [pullReqLen] using ‹¬ rx.length < pullReqLen›, rfl⟩)

/-- Everything RF.ABORT can do (R131). -/
theorem execRfAbort_cases (s : State) :
    (s.rfState ≠ .awaitReq ∧ execRfAbort s = .fault .abortNotEnabled) ∨
    (s.rfState = .awaitReq ∧
      execRfAbort s = .next { s with rfCause := .connClosed, rfState := .failed }) := by
  unfold execRfAbort
  split
  · exact .inl ⟨‹_›, rfl⟩
  · exact .inr ⟨not_not.mp ‹_›, rfl⟩

end Sys2Proof.Machine
end

