-- ==== Sys2Proof/Laws/Exec.lean ====
section
/-! SUPPORT. Laws.Exec: one inversion lemma for `exec`, and one for `step`: everything an answered operation can do. -/

namespace Sys2Proof.Machine

/-- The tag of a start and the metadata of its header. -/
def StartsWith (i : Instr) (tag : Byte) (metadata : Bytes) : Prop :=
  (i = .rfStartBridge ∧ tag = tagBridge ∧ metadata = []) ∨
  (∃ fileSize digest, i = .rfStartNcp fileSize digest ∧ tag = tagNcp ∧ metadata = ncpMetadata fileSize digest) ∨
  (∃ fileSize nodeId digest, i = .rfStartNode fileSize nodeId digest ∧ tag = tagNode ∧
    metadata = nodeMetadata fileSize nodeId digest)

/-- A well-formed start has legal metadata (R71). -/
theorem StartsWith.legal {i : Instr} {tag : Byte} {metadata : Bytes} (h : StartsWith i tag metadata)
    (wf : i.wf = true) : LegalMetadata tag metadata := by
  obtain ⟨rfl, rfl, rfl⟩ | ⟨_, _, rfl, rfl, rfl⟩ | ⟨_, _, _, rfl, rfl, rfl⟩ := h
  · exact .inl ⟨rfl, rfl⟩
  · exact .inr (.inl ⟨rfl, by simp_all [Instr.wf, digestOk, digestLen, ncpMetadata, le32]⟩)
  · exact .inr (.inr ⟨rfl, by simp_all [Instr.wf, digestOk, digestLen, nodeMetadata, le32, be16]⟩)

/-- A start is one of the three. -/
theorem StartsWith.isStart {i : Instr} {tag : Byte} {metadata : Bytes} (h : StartsWith i tag metadata) :
    isStart i = true := by
  obtain ⟨rfl, -, -⟩ | ⟨_, _, rfl, -, -⟩ | ⟨_, _, _, rfl, -, -⟩ := h <;> rfl

/-- What SYS.RESET leaves (R180). -/
theorem execSysReset_eq (s : State) :
    execSysReset s =
      .next { s with
        crc := 0x1D0F, rfState := .idle, rfTag := 0x00, rfPos := 0, rfCause := .none
        outlog := [], txlog := [], reslog := [.ok], rxlog := [] } := rfl

/-- What a command outside the relay session can do: write CRC, return frames, answer. -/
def SideEffect (i : Instr) (s t : State) : Prop :=
  ∃ c frames answers,
    t = { s with crc := c, outlog := s.outlog ++ frames, reslog := s.reslog ++ answers } ∧
      (i.op ∉ ([.crcInit, .crcByte, .crcCompute, .fwReport] : List Op) → c = s.crc)

/-- Returning a frame is a side effect. -/
theorem SideEffect.out (i : Instr) (s : State) (frame : Bytes) : SideEffect i s (s.out frame) :=
  ⟨s.crc, [frame], [], by simp [State.out], fun _ => rfl⟩

/-- An answer is a side effect. -/
theorem SideEffect.respond (i : Instr) (s : State) (v : Res) : SideEffect i s (s.respond v) :=
  ⟨s.crc, [], [v], by simp [State.respond], fun _ => rfl⟩

/-- A refusal is a side effect. -/
theorem SideEffect.refuse (i : Instr) (s : State) (r : Reason) : SideEffect i s (s.refuse r) :=
  SideEffect.respond i s (.refused r)

/-- Writing CRC and answering is a side effect of the operations that write CRC (R20). -/
theorem SideEffect.crc_respond {i : Instr} (h : i.op ∈ ([.crcInit, .crcByte, .crcCompute, .fwReport] : List Op))
    (s : State) (c : Word16) (v : Res) : SideEffect i s ((s.setCrc c).respond v) :=
  ⟨c, [], [v], by simp [State.setCrc, State.respond], fun hn => absurd h hn⟩

/-- Writing CRC and returning a frame is a side effect of the operations that write CRC (R20). -/
theorem SideEffect.crc_out {i : Instr} (h : i.op ∈ ([.crcInit, .crcByte, .crcCompute, .fwReport] : List Op))
    (s : State) (c : Word16) (frame : Bytes) : SideEffect i s ((s.setCrc c).out frame) :=
  ⟨c, [frame], [], by simp [State.setCrc, State.out], fun hn => absurd h hn⟩

/-- A side command always answers a next state, with a side effect only (R185). -/
theorem exec_side {i : Instr} (h : isSideCommand i = true) (s : State) :
    ∃ t, exec i s = .next t ∧ SideEffect i s t := by
  cases i <;> try cases h
  case crcInit => exact ⟨_, rfl, .crc_respond (by decide) _ _ _⟩
  case crcByte d => exact ⟨_, rfl, .crc_respond (by simp [Instr.op]) _ _ _⟩
  case crcRead => exact ⟨_, rfl, .respond _ _ _⟩
  case crcCompute data => exact ⟨_, rfl, .crc_respond (by simp [Instr.op]) _ _ _⟩
  case envEncode => exact ⟨_, rfl, .out _ _ _⟩
  case fwMdget => exact ⟨_, rfl, .out _ _ _⟩
  case fwReqget => exact ⟨_, rfl, .out _ _ _⟩
  case fwUpdget => exact ⟨_, rfl, .out _ _ _⟩
  case fwActset => exact ⟨_, rfl, .out _ _ _⟩
  case fwDecreq => exact ⟨_, rfl, .respond _ _ _⟩
  case fwReport n last chunk =>
    simp only [exec, execFwReport]
    split_ifs
    · exact ⟨_, rfl, .refuse _ _ _⟩
    · exact ⟨_, rfl, .crc_out (by simp [Instr.op]) _ _ _⟩
  case recEncode tag rtype payload =>
    simp only [exec, execRecEncode]
    split_ifs
    · exact ⟨_, rfl, .refuse _ _ _⟩
    · exact ⟨_, rfl, .refuse _ _ _⟩
    · exact ⟨_, rfl, .refuse _ _ _⟩
    · exact ⟨_, rfl, .out _ _ _⟩
  case reqDecode rx =>
    simp only [exec, execReqDecode]
    split_ifs
    · exact ⟨_, rfl, .refuse _ _ _⟩
    · exact ⟨_, rfl, .respond _ _ _⟩
    · exact ⟨_, rfl, .respond _ _ _⟩

/-- A start is `startSession` with its tag and metadata. -/
theorem exec_start {i : Instr} (h : isStart i = true) (s : State) :
    ∃ tag metadata, StartsWith i tag metadata ∧ exec i s = .next (startSession tag metadata s) := by
  cases i <;> try cases h
  case rfStartBridge => exact ⟨_, _, .inl ⟨rfl, rfl, rfl⟩, rfl⟩
  case rfStartNcp => exact ⟨_, _, .inr (.inl ⟨_, _, rfl, rfl, rfl⟩), rfl⟩
  case rfStartNode => exact ⟨_, _, .inr (.inr ⟨_, _, _, rfl, rfl, rfl⟩), rfl⟩

/-- Every operation is a reset, a side command, a start, a pull or an abort. -/
theorem instr_class (i : Instr) :
    i = .sysReset ∨ isSideCommand i = true ∨ isStart i = true ∨ (∃ rx, i = .rfPull rx) ∨ i = .rfAbort := by
  cases i <;> first
    | exact .inl rfl
    | exact .inr (.inl rfl)
    | exact .inr (.inr (.inl rfl))
    | exact .inr (.inr (.inr (.inl ⟨_, rfl⟩)))
    | exact .inr (.inr (.inr (.inr rfl)))

/-- Everything an answered operation can have done. -/
theorem exec_cases {i : Instr} {s t : State} (h : exec i s = .next t) :
    (i = .sysReset ∧
      t = { s with
        crc := 0x1D0F, rfState := .idle, rfTag := 0x00, rfPos := 0, rfCause := .none
        outlog := [], txlog := [], reslog := [.ok], rxlog := [] }) ∨
    (isSideCommand i = true ∧ SideEffect i s t) ∨
    (isStart i = true ∧ ∃ tag metadata, StartsWith i tag metadata ∧ t = startSession tag metadata s) ∨
    (∃ rx, i = .rfPull rx ∧ s.rfState = .awaitReq ∧ rx.length < 3 ∧
      t = { s with rxlog := s.rxlog ++ rx, rfCause := .relayShortRead, rfState := .failed }) ∨
    (∃ rx, i = .rfPull rx ∧ s.rfState = .awaitReq ∧ 3 ≤ rx.length ∧
      t = servePull (requestedLength rx) { s with rxlog := s.rxlog ++ rx }) ∨
    (i = .rfAbort ∧ s.rfState = .awaitReq ∧ t = { s with rfCause := .connClosed, rfState := .failed }) := by
  obtain rfl | hi | hi | ⟨rx, rfl⟩ | rfl := instr_class i
  · cases h
    exact .inl ⟨rfl, rfl⟩
  · obtain ⟨t', ht, he⟩ := exec_side hi s
    cases ht.symm.trans h
    exact .inr (.inl ⟨hi, he⟩)
  · obtain ⟨tag, metadata, hs, ht⟩ := exec_start hi s
    cases ht.symm.trans h
    exact .inr (.inr (.inl ⟨hi, tag, metadata, hs, rfl⟩))
  · obtain ⟨_, e⟩ | ⟨hs, hl, e⟩ | ⟨hs, hl, e⟩ := execRfPull_cases rx s <;> cases e.symm.trans h
    · exact .inr (.inr (.inr (.inl ⟨rx, rfl, hs, hl, rfl⟩)))
    · exact .inr (.inr (.inr (.inr (.inl ⟨rx, rfl, hs, hl, rfl⟩))))
  · obtain ⟨_, e⟩ | ⟨hs, e⟩ := execRfAbort_cases s <;> cases e.symm.trans h
    exact .inr (.inr (.inr (.inr (.inr ⟨rfl, hs, rfl⟩))))

/-- Everything a step can do: an operation, a refused OP, or a change at port FILE between sessions. -/
theorem step_cases {s t : State} (h : step s = .next t) :
    (∃ packet rest i, s.inputs = .op packet :: rest ∧ decode packet = .ok i ∧
      exec i { s with inputs := rest } = .next t) ∨
    (∃ packet rest op, s.inputs = .op packet :: rest ∧ decode packet = .error (.unknownOp op) ∧
      t = { s with inputs := rest, reslog := s.reslog ++ [.refused .unknownOp] }) ∨
    (∃ contents rest, s.inputs = .fileReady contents :: rest ∧ s.rfState ≠ .awaitReq ∧
      contents.length ≤ fileLenMax ∧ t = { s with inputs := rest, fileOpen := true, file := contents }) ∨
    (∃ rest, s.inputs = .fileUnavailable :: rest ∧ s.rfState ≠ .awaitReq ∧
      t = { s with inputs := rest, fileOpen := false }) := by
  unfold step at h
  split at h
  · unfold noInput at h
    split_ifs at h
  · split at h
    · exact .inl ⟨_, _, _, ‹_›, ‹_›, h⟩
    · unfold undecodable at h
      split at h <;> cases h
      exact .inr (.inl ⟨_, _, _, ‹_›, ‹_›, rfl⟩)
  · unfold openFile at h
    split_ifs at h with h1 h2
    cases h
    exact .inr (.inr (.inl ⟨_, _, ‹_›, h1, by omega, rfl⟩))
  · unfold closeFile at h
    split_ifs at h with h1
    cases h
    exact .inr (.inr (.inr ⟨_, ‹_›, h1, rfl⟩))

end Sys2Proof.Machine
end

