-- ==== Sys2Proof/Laws/Connections.lean ====
section
/-! SUPPORT. Laws.Connections: what writing one binding changes, and what the end of a connection does to its block. -/

namespace Sys2Proof.Machine

variable {Address Handle : Type} [DecidableEq Handle]

@[simp] theorem Connections.setBinding_registry (c : Connections Address Handle) (b : Binding Handle) :
    (c.setBinding b).registry = c.registry := rfl

/-- Writing a binding binds and unbinds nothing. -/
@[simp] theorem Connections.setBinding_handles (c : Connections Address Handle) (b : Binding Handle) :
    (c.setBinding b).bindings.map Binding.handle = c.bindings.map Binding.handle := by
  simp only [Connections.setBinding, List.map_map]
  congr 1
  funext x
  by_cases h : x.handle = b.handle <;> simp [h]

/-- A found binding has the handle asked for. -/
theorem Connections.handle_of_bindingOf {c : Connections Address Handle} {handle : Handle} {b : Binding Handle}
    (h : c.bindingOf handle = some b) : b.handle = handle := by
  simpa using List.find?_some h

/-- A written binding is what was written, and every other one is what it was. -/
theorem Connections.bindingOf_setBinding (c : Connections Address Handle) (b : Binding Handle) (other : Handle) :
    (c.setBinding b).bindingOf other =
      if other = b.handle then (c.bindingOf other).map fun _ => b else c.bindingOf other := by
  obtain ⟨registry, bindings⟩ := c
  simp only [Connections.bindingOf, Connections.setBinding]
  induction bindings with
  | nil => simp
  | cons x rest ih =>
    simp only [List.map_cons, List.find?_cons]
    by_cases e : x.handle = other
    · subst e
      by_cases h : x.handle = b.handle <;> simp [h]
    · have e' : ¬ (if x.handle = b.handle then b else x).handle = other := by
        split
        · exact fun h => e (‹x.handle = b.handle›.trans h)
        · exact e
      simp only [decide_eq_false e, decide_eq_false e']
      exact ih

/-- Writing the binding that was found, for its own handle. -/
theorem Connections.bindingOf_setBinding_self {c : Connections Address Handle} {handle : Handle} {b : Binding Handle}
    (h : c.bindingOf handle = some b) (x : Binding Handle) (hx : x.handle = handle) :
    (c.setBinding x).bindingOf handle = some x := by
  rw [Connections.bindingOf_setBinding, if_pos hx.symm, h]
  rfl

/-- A written binding's block stands behind its handle, and every other block is what it was. -/
theorem Connections.blockOf_setBinding {c : Connections Address Handle} {handle : Handle} {b : Binding Handle}
    (h : c.bindingOf handle = some b) (x : Binding Handle) (hx : x.handle = handle) (other : Handle) :
    (c.setBinding x).blockOf other = if other = handle then some x.block else c.blockOf other := by
  simp only [Connections.blockOf, Connections.bindingOf_setBinding, hx]
  split
  · subst other
    rw [h]
    rfl
  · rfl

/-- A handle without a binding is bound by no entry. -/
theorem Connections.bindingOf_eq_none (c : Connections Address Handle) (handle : Handle) :
    c.bindingOf handle = none ↔ handle ∉ c.bindings.map Binding.handle := by
  simp [Connections.bindingOf]

/-- A served step is a next state, written to the binding. -/
theorem Connections.serve_eq_some {c d : Connections Address Handle} {b : Binding Handle}
    {o : Host.Outcome State Fault Refusal} (h : c.serve b o = some d) :
    ∃ t, o = .next t ∧ d = c.setBinding { b with block := t } := by
  unfold Connections.serve at h
  split at h <;> cases h
  exact ⟨_, rfl, rfl⟩

/-- The end of a connection takes entries out and adds none. -/
theorem Registry.dropHandle_sublist [DecidableEq Address] (r : Registry Address Handle) (handle : Handle) :
    List.Sublist (r.dropHandle handle) r := by
  unfold Registry.dropHandle
  split
  · exact List.filter_sublist
  · exact List.Sublist.refl _

/-- With at most one entry a connection, none of the ended one stays. -/
theorem Registry.dropHandle_ne [DecidableEq Address] {r : Registry Address Handle}
    (h : (r.map ClientSession.connectionHandle).Nodup) (handle : Handle) :
    ∀ e ∈ r.dropHandle handle, e.connectionHandle ≠ handle := by
  intro x hx e
  unfold Registry.dropHandle at hx
  split at hx
  · rename_i y hy
    have hy' : y.connectionHandle = handle := by simpa using List.find?_some hy
    simp only [Registry.unregister, List.mem_filter] at hx
    have := List.inj_on_of_nodup_map h hx.1 (List.mem_of_find?_eq_some hy) (e.trans hy'.symm)
    simp [this] at hx
  · rename_i hn
    rw [List.find?_eq_none] at hn
    exact hn x hx (by simp [e])

/-- Everything the end of a connection can do to its block (R130, R131). -/
theorem hangUp_cases (how : Closure) (s : State) :
    (s.rfState ≠ .awaitReq ∧ hangUp how s = s) ∨
    (s.rfState = .awaitReq ∧
      hangUp how s = { s with
        rfState := .failed
        rfCause := match how with
          | .forced => .connClosed
          | .emptyRead => .relayShortRead }) := by
  cases how
  · obtain ⟨h, e⟩ | ⟨h, e⟩ := execRfAbort_cases s
    · exact .inl ⟨h, by simp [hangUp, issue, Closure.event, exec, e]⟩
    · exact .inr ⟨h, by simp [hangUp, issue, Closure.event, exec, e]⟩
  · obtain ⟨h, e⟩ | ⟨h, _, e⟩ | ⟨h, hl, _⟩ := execRfPull_cases [] s
    · exact .inl ⟨h, by simp [hangUp, issue, Closure.event, exec, e]⟩
    · exact .inr ⟨h, by simp [hangUp, issue, Closure.event, exec, e]⟩
    · simp at hl

end Sys2Proof.Machine
end

