-- ==== Sys2Proof/Laws/Crc.lean ====
section
/-! SUPPORT. Laws.Crc: the CRC functions as their callers use them. -/

namespace Sys2Proof.Machine

/-- The bit step in closed form (R90). -/
theorem crcBit_eq (r : Word16) (b : Bool) :
    crcBit r b = (r <<< 1) ^^^ (if r.msb ^^ b then crcPoly else 0) := by
  unfold crcBit crcTransient
  split <;> simp_all

/-- When the top bit is the data bit, the bit step is the shift alone. -/
theorem crcBit_of_msb (r : Word16) : crcBit r r.msb = r <<< 1 := by
  simp [crcBit_eq]

@[simp] theorem crcFrom_nil (r : Word16) : crcFrom r [] = r := rfl

@[simp] theorem crcFrom_cons (r : Word16) (d : Byte) (data : Bytes) :
    crcFrom r (d :: data) = crcFrom (crcByte r d) data := rfl

theorem crcFrom_append (r : Word16) (a b : Bytes) : crcFrom r (a ++ b) = crcFrom (crcFrom r a) b := by
  simp [crcFrom]

@[simp] theorem crc16_nil : crc16 [] = 0x1D0F := rfl

theorem crc16_append (a b : Bytes) : crc16 (a ++ b) = crcFrom (crc16 a) b :=
  crcFrom_append _ a b

end Sys2Proof.Machine
end

