-- ==== Sys2Proof/Laws/Decode.lean ====
section
/-! SUPPORT. Laws.Decode: the OP table is unambiguous, and the operand helpers are inverse to their encoders. -/

namespace Sys2Proof

/-- Every OP code of R61 finds its own row. -/
@[simp] theorem Op.ofByte_code (o : Op) : Op.ofByte o.code = some o := by
  cases o <;> decide

/-- A byte finds only the row whose code it is. -/
theorem Op.code_of_ofByte {b : Byte} {o : Op} (h : Op.ofByte b = some o) : o.code = b := by
  simpa using List.find?_some h

/-- A packet that begins with a code of R61 decodes by that row. -/
theorem decode_code (o : Op) (args : Bytes) : decode (o.code :: args) = decodeOperands o args := by
  simp [decode]

@[simp] theorem decodeBool_boolByte (b : Bool) : decodeBool (Machine.boolByte b) = .ok b := by
  cases b <;> decide

theorem boolByte_of_decodeBool {b : Byte} {v : Bool} (h : decodeBool b = .ok v) : Machine.boolByte v = b := by
  unfold decodeBool at h
  split at h
  · cases h
    simp_all [Machine.boolByte]
  · split at h
    · cases h
      simp_all [Machine.boolByte]
    · cases h

/-- A 15-bit value survives its two packet bytes. -/
@[simp] theorem decodeWord15_be16 (n : Word15) :
    decodeWord15 (Machine.hi8 (n.setWidth 16)) (Machine.lo8 (n.setWidth 16)) = .ok n := by
  have hn := n.isLt
  have h : (Machine.hi8 (n.setWidth 16)).msb = false := by
    rw [BitVec.msb_eq_decide, Machine.hi8_toNat]
    simp
    omega
  simp only [decodeWord15, h, Machine.joinBE16_hi8_lo8]
  rw [if_neg (by simp)]
  congr 1
  apply BitVec.eq_of_toNat_eq
  simp

theorem be16_of_decodeWord15 {a b : Byte} {n : Word15} (h : decodeWord15 a b = .ok n) :
    Machine.be16 (n.setWidth 16) = [a, b] := by
  unfold decodeWord15 at h
  split at h
  · cases h
  · cases h
    rename_i ha
    rw [← Machine.be16_joinBE16 a b]
    congr 1
    apply BitVec.eq_of_toNat_eq
    have := b.isLt
    rw [BitVec.msb_eq_decide] at ha
    simp [Machine.joinBE16_toNat] at ha ⊢
    omega

end Sys2Proof
end

