-- ==== Sys2Proof/Laws/HostSession.lean ====
section
/-! SUPPORT. Laws.HostSession: what one pass of the host's delivery loop does, and the small lemmas of its session. -/

namespace Sys2Proof.Machine

/-- The bound of a report number in numerals (R5). -/
@[simp] theorem two_pow_reportNumberBits : 2 ^ reportNumberBits = 32768 := rfl

/-- The counter wraps modulo 256 (R148). -/
theorem nextSeq_eq (seq : Byte) : nextSeq seq = seq + 1 := by
  apply BitVec.eq_of_toNat_eq
  simp [nextSeq, seqModulus]

@[simp] theorem TransferSession.transmit_sent (h : TransferSession) (d : Bytes) : (h.transmit d).sent = h.sent ++ [d] := rfl

@[simp] theorem TransferSession.transmit_seq (h : TransferSession) (d : Bytes) :
    (h.transmit d).seq = seqAfterReport h.seqAdvance h.seq := rfl

@[simp] theorem TransferSession.transmit_seqAdvance (h : TransferSession) (d : Bytes) :
    (h.transmit d).seqAdvance = h.seqAdvance := rfl

@[simp] theorem TransferSession.transmit_firmware (h : TransferSession) (d : Bytes) :
    (h.transmit d).firmware = h.firmware := rfl

@[simp] theorem TransferSession.transmit_chunkSize (h : TransferSession) (d : Bytes) :
    (h.transmit d).chunkSize = h.chunkSize := rfl

@[simp] theorem TransferSession.transmit_totalChunkCount (h : TransferSession) (d : Bytes) :
    (h.transmit d).totalChunkCount = h.totalChunkCount := rfl

@[simp] theorem TransferSession.transmit_flags0 (h : TransferSession) (d : Bytes) : (h.transmit d).flags0 = h.flags0 := rfl

@[simp] theorem TransferSession.transmit_flags1 (h : TransferSession) (d : Bytes) : (h.transmit d).flags1 = h.flags1 := rfl

@[simp] theorem TransferSession.transmit_ackArrives (h : TransferSession) (d : Bytes) :
    (h.transmit d).ackArrives = h.ackArrives := rfl

/-- After its first report a session waits for no acknowledgment (R149). -/
@[simp] theorem TransferSession.transmit_goesOn (h : TransferSession) (d : Bytes) : (h.transmit d).goesOn = true := by
  simp [TransferSession.goesOn]

/-- A session stops after the next report only if that is its first, and not acknowledged as required (R149). -/
theorem TransferSession.goesOn_eq_false (h : TransferSession) :
    h.goesOn = false ↔ h.sent = [] ∧ mayProceed h.ackArrives = false := by
  simp [TransferSession.goesOn]

/-- A session at its beginning has its constants. -/
theorem TransferSession.start_wf (firmware : Bytes) (seq : Byte) (a : SeqAdvance) (flags : Byte × Byte)
    (ack : Bool) : (TransferSession.start firmware seq a flags ack).wf :=
  ⟨rfl, rfl⟩

/-- Transmitting changes no constant of the session. -/
theorem TransferSession.transmit_wf {h : TransferSession} (w : h.wf) (d : Bytes) : (h.transmit d).wf :=
  w

/-- FW.REPORT and then ENV.ENCODE on its frame, for a chunk that is not refused (R72, R106). -/
theorem execEnveloped_report (n : Word15) (last : Bool) (chunk : Bytes) (seq flags0 flags1 : Byte) (s : State)
    (hl : chunk.length ≤ 40) :
    execEnveloped (.fwReport n last chunk) seq flags0 flags1 s =
      .next { s with
        crc := crc16 (reportBody n last chunk)
        outlog := s.outlog ++
          [reportBody n last chunk ++ be16 (crc16 (reportBody n last chunk)),
            envelopeFrame (reportBody n last chunk ++ be16 (crc16 (reportBody n last chunk))) seq flags0 flags1] } := by
  obtain ⟨h, _⟩ | ⟨_, e⟩ := execFwReport_cases n last chunk s
  · omega
  · simp only [execEnveloped, exec, e]
    simp [execEnvEncode, State.out]

/-- One pass of the loop of `deliver`, for a chunk number that has bytes and fits a report (R145). -/
theorem sendReport_eq {h : TransferSession} {k : Nat} {chunk : Bytes} (hc : h.chunk k = some chunk) (hk : k < 32768)
    (hl : chunk.length ≤ 40) (s : State) :
    let last := decide (h.totalChunkCount ≤ k)
    let body := reportBody (BitVec.ofNat 15 k) last chunk
    let frame := body ++ be16 (crc16 body)
    let datagram := envelopeFrame frame h.seq h.flags0 h.flags1
    sendReport h k s =
      some (h.transmit datagram, { s with crc := crc16 body, outlog := s.outlog ++ [frame, datagram] }, last) := by
  intro last body frame datagram
  have e := execEnveloped_report (BitVec.ofNat 15 k) last chunk h.seq h.flags0 h.flags1 s hl
  change execEnveloped _ _ _ _ _ = .next { s with crc := crc16 body, outlog := s.outlog ++ [frame, datagram] } at e
  unfold sendReport
  rw [hc]
  simp only [two_pow_reportNumberBits, if_pos hk]
  change (match execEnveloped (.fwReport (BitVec.ofNat 15 k) last chunk) h.seq h.flags0 h.flags1 s with
    | .next t => t.outlog.getLast?.map fun datagram => (h.transmit datagram, t, last)
    | .fault _ => none
    | .refused _ => none) = _
  rw [e]
  simp

/-- The bytes of a chunk in the range of the session (R143). -/
theorem TransferSession.chunk_eq {h : TransferSession} (w : h.wf) {k : Nat} (h1 : 1 ≤ k) (h2 : k ≤ h.totalChunkCount) :
    h.chunk k = some ((h.firmware.drop ((k - 1) * 40)).take 40) := by
  unfold TransferSession.chunk
  rw [if_pos ⟨h1, h2⟩, w.1]
  rfl

end Sys2Proof.Machine
end

