-- ==== Sys2Proof/Laws/PerInstr.lean ====
section
/-! SUPPORT. Laws.PerInstr: the family OpcodeFirst, one lemma per operation of `30_encoding.md` R61. -/

namespace Sys2Proof.Laws.OpcodeFirst

/-- A packet begins with the OP of its operation, by which the decoder finds its row (R61). -/
def Statement (i : Instr) : Prop :=
  (encode i).head? = some i.op.code ∧ Op.ofByte i.op.code = some i.op

theorem sysReset : Statement .sysReset :=
  ⟨rfl, Op.ofByte_code _⟩

theorem crcInit : Statement .crcInit :=
  ⟨rfl, Op.ofByte_code _⟩

theorem crcByte (d : Byte) : Statement (.crcByte d) :=
  ⟨rfl, Op.ofByte_code _⟩

theorem crcRead : Statement .crcRead :=
  ⟨rfl, Op.ofByte_code _⟩

theorem crcCompute (data : Bytes) : Statement (.crcCompute data) :=
  ⟨rfl, Op.ofByte_code _⟩

theorem envEncode (payload : Bytes) (seq flags0 flags1 : Byte) : Statement (.envEncode payload seq flags0 flags1) :=
  ⟨rfl, Op.ofByte_code _⟩

theorem fwMdget : Statement .fwMdget :=
  ⟨rfl, Op.ofByte_code _⟩

theorem fwReqget (vendor fw ck target : Byte) : Statement (.fwReqget vendor fw ck target) :=
  ⟨rfl, Op.ofByte_code _⟩

theorem fwUpdget (vendor fw ck : Word16) : Statement (.fwUpdget vendor fw ck) :=
  ⟨rfl, Op.ofByte_code _⟩

theorem fwReport (n : Word15) (last : Bool) (chunk : Bytes) : Statement (.fwReport n last chunk) :=
  ⟨rfl, Op.ofByte_code _⟩

theorem fwActset (vendor fw ck : Word16) (target hw : Byte) : Statement (.fwActset vendor fw ck target hw) :=
  ⟨rfl, Op.ofByte_code _⟩

theorem fwDecreq (raw : Bytes) : Statement (.fwDecreq raw) :=
  ⟨rfl, Op.ofByte_code _⟩

theorem recEncode (tag rtype : Byte) (payload : Bytes) : Statement (.recEncode tag rtype payload) :=
  ⟨rfl, Op.ofByte_code _⟩

theorem reqDecode (rx : Bytes) : Statement (.reqDecode rx) :=
  ⟨rfl, Op.ofByte_code _⟩

theorem rfStartBridge : Statement .rfStartBridge :=
  ⟨rfl, Op.ofByte_code _⟩

theorem rfStartNcp (fileSize : Word32) (digest : Bytes) : Statement (.rfStartNcp fileSize digest) :=
  ⟨rfl, Op.ofByte_code _⟩

theorem rfStartNode (fileSize : Word32) (nodeId : Word16) (digest : Bytes) : Statement (.rfStartNode fileSize nodeId digest) :=
  ⟨rfl, Op.ofByte_code _⟩

theorem rfPull (rx : Bytes) : Statement (.rfPull rx) :=
  ⟨rfl, Op.ofByte_code _⟩

theorem rfAbort : Statement .rfAbort :=
  ⟨rfl, Op.ofByte_code _⟩

end Sys2Proof.Laws.OpcodeFirst
end

