-- ==== Sys2Proof/Tests/Slice0.lean ====
section
/-! SUPPORT. Tests: checks against values of `95_test_vectors.md`, packets written out from R61, and a witness for the
hypotheses of each obligation. -/

namespace Sys2Proof.Tests

open Sys2Proof.Machine

/-- The digest A0 A1 … AF of the vectors. -/
def digest : Bytes :=
  [0xA0, 0xA1, 0xA2, 0xA3, 0xA4, 0xA5, 0xA6, 0xA7, 0xA8, 0xA9, 0xAA, 0xAB, 0xAC, 0xAD, 0xAE, 0xAF]

/-- The 8-byte file of `95_test_vectors.md` section 2.3. -/
def file8 : Bytes := [0x11, 0x22, 0x33, 0x44, 0x55, 0x66, 0x77, 0x88]

/-- The digits "123456789". -/
def digits : Bytes := [0x31, 0x32, 0x33, 0x34, 0x35, 0x36, 0x37, 0x38, 0x39]

/-- The reset state with a file open. -/
def ready (file : Bytes) : State := { State.reset with fileOpen := true, file := file }

/-- A state in a session: phase, tag, position, cause; nothing recorded. -/
def inSession (phase : RfState) (tag : Byte) (pos : Word32) (cause : Cause) (file : Bytes) : State :=
  { ready file with rfState := phase, rfTag := tag, rfPos := pos, rfCause := cause }

/-- One field or more after an operation. -/
def after {α : Type} (i : Instr) (s : State) (f : State → α) : Option α :=
  (nextOf (exec i s)).map f

/-- The four relay registers. -/
def relay (s : State) : RfState × Byte × Word32 × Cause := (s.rfState, s.rfTag, s.rfPos, s.rfCause)

/-! ## Well-formedness: each check refuses an ill-formed operation -/

theorem test_wf_refuses_short_ncp_digest : (Instr.rfStartNcp 100 (digest.take 15)).wf = false := by decide

theorem test_wf_refuses_long_node_digest : (Instr.rfStartNode 100 1 (digest ++ [0xB0])).wf = false := by decide

theorem test_wf_refuses_four_bytes_from_rx : (Instr.rfPull [0x00, 0x40, 0x00, 0x00]).wf = false := by decide

theorem test_wf_accepts_a_refusable_report : (Instr.fwReport 1 false (List.replicate 41 0)).wf = true := by decide

/-! ## Decoding: packets written out from the OP column of R61 and log 1 -/

theorem test_decode_sysReset : decode [0x00] = .ok .sysReset := by decide

theorem test_decode_crcInit : decode [0x10] = .ok .crcInit := by decide

theorem test_decode_crcByte : decode [0x11, 0x31] = .ok (.crcByte 0x31) := by decide

theorem test_decode_crcRead : decode [0x12] = .ok .crcRead := by decide

theorem test_decode_crcCompute : decode [0x13, 0x41, 0x42] = .ok (.crcCompute [0x41, 0x42]) := by decide

theorem test_decode_envEncode :
    decode [0x20, 0xFF, 0xA5, 0x5A, 0x7A, 0x01] = .ok (.envEncode [0x7A, 0x01] 0xFF 0xA5 0x5A) := by decide

theorem test_decode_fwMdget : decode [0x21] = .ok .fwMdget := by decide

theorem test_decode_fwReqget : decode [0x23, 0xAB, 0x02, 0xCC, 0x07] = .ok (.fwReqget 0xAB 0x02 0xCC 0x07) := by decide

theorem test_decode_fwUpdget :
    decode [0x25, 0xAB, 0xCD, 0x01, 0x02, 0xE5, 0xCC] = .ok (.fwUpdget 0xABCD 0x0102 0xE5CC) := by decide

theorem test_decode_fwReport :
    decode [0x26, 0x7F, 0xFE, 0x01, 0xDE, 0xAD] = .ok (.fwReport 0x7FFE true [0xDE, 0xAD]) := by decide

theorem test_decode_fwActset :
    decode [0x28, 0xAB, 0xCD, 0x01, 0x02, 0xE5, 0xCC, 0x03, 0x04] =
      .ok (.fwActset 0xABCD 0x0102 0xE5CC 0x03 0x04) := by decide

theorem test_decode_fwDecreq :
    decode [0x2F, 0x7A, 0x05, 0x03, 0x00, 0x01] = .ok (.fwDecreq [0x7A, 0x05, 0x03, 0x00, 0x01]) := by decide

theorem test_decode_recEncode :
    decode [0x30, 0x20, 0x01, 0x11] = .ok (.recEncode 0x20 0x01 [0x11]) := by decide

theorem test_decode_reqDecode : decode [0x31, 0x00, 0x2C, 0x01] = .ok (.reqDecode [0x00, 0x2C, 0x01]) := by decide

theorem test_decode_rfStartBridge : decode [0x32] = .ok .rfStartBridge := by decide

theorem test_decode_rfStartNcp :
    decode ([0x33, 0x00, 0x01, 0x23, 0x45] ++ digest) = .ok (.rfStartNcp 0x00012345 digest) := by decide

theorem test_decode_rfStartNode :
    decode ([0x34, 0x00, 0x01, 0x23, 0x45, 0x01, 0x05] ++ digest) = .ok (.rfStartNode 0x00012345 0x0105 digest) := by
  decide

theorem test_decode_rfPull : decode [0x35, 0x00, 0x40, 0x00] = .ok (.rfPull [0x00, 0x40, 0x00]) := by decide

theorem test_decode_rfAbort : decode [0x36] = .ok .rfAbort := by decide

theorem test_decode_refuses_unassigned_op : decode [0x22, 0x01] = .error (.unknownOp 0x22) := by decide

theorem test_decode_refuses_wide_report_number : decode [0x26, 0x80, 0x00, 0x00] = .error .reportNumber := by decide

theorem test_decode_refuses_bool_two : decode [0x26, 0x00, 0x01, 0x02] = .error .notBool := by decide

theorem test_table_word_is_padded : decodeTableWord 8 0x25 = some (.fwUpdget 0 0 0) := by decide

theorem test_fetch_word_runs : step (State.reset.withFetchWord 8 0x10) = exec .crcInit State.reset := rfl

/-! ## CRC unit (`95_test_vectors.md` sections 2.1, P1) -/

theorem test_crcBit_top_bit : (crcBit 0x8000 false, crcBit 0x8000 true) = (0x1021, 0x0000) := by decide

theorem test_crcByte_trace : (crcByte 0x1D0F 0x31, crcByte 0x1D0F 0x80) = (0xEAEE, 0x5D14) := by decide +kernel

theorem test_crc16_digits : crc16 digits = 0xE5CC := by decide +kernel

theorem test_crcInit : after .crcInit { State.reset with crc := 0xE5CC } State.crc = some 0x1D0F := by decide

theorem test_crcByte : after (.crcByte 0x32) { State.reset with crc := 0xEAEE } State.crc = some 0xA475 := by
  decide +kernel

theorem test_crcRead :
    after .crcRead { State.reset with crc := 0xA475 } (fun t => (t.crc, t.reslog)) =
      some (0xA475, [.value16 0xA475]) := by decide

theorem test_crcCompute :
    after (.crcCompute digits) { State.reset with crc := 0xFFFF } (fun t => (t.crc, t.reslog)) =
      some (0xE5CC, [.value16 0xE5CC]) := by decide +kernel

/-! ## Packet codec (`95_test_vectors.md` section 2.2, P2, P5) -/

theorem test_envEncode :
    after (.envEncode [0x7A, 0x01] 0xFF 0xA5 0x5A) State.reset State.outlog =
      some [[0x23, 0x02, 0xA5, 0x5A, 0xFF, 0x00, 0x00, 0x7A, 0x01]] := by decide

theorem test_fwMdget : after .fwMdget State.reset State.outlog = some [[0x7A, 0x01]] := by decide

theorem test_fwReqget :
    after (.fwReqget 0xAB 0x02 0xCC 0x00) State.reset State.outlog =
      some [[0x7A, 0x03, 0xAB, 0x02, 0xCC, 0x00, 0x00, 0x28, 0x00, 0x01]] := by decide

theorem test_fwUpdget :
    after (.fwUpdget 0xABCD 0x0102 0xE5CC) State.reset State.outlog =
      some [[0x7A, 0x05, 0xAB, 0xCD, 0x01, 0x02, 0xE5, 0xCC]] := by decide

theorem test_fwReport_top_number :
    after (.fwReport 0x7FFF true [0xAA]) State.reset (fun t => (t.outlog, t.crc)) =
      some ([[0x7A, 0x06, 0xFF, 0xFF, 0xAA, 0x55, 0x43]], 0x5543) := by decide +kernel

theorem test_fwReport_too_long :
    after (.fwReport 1 false (List.replicate 41 0)) { State.reset with crc := 0x032A }
      (fun t => (t.outlog, t.crc, t.reslog)) = some ([], 0x032A, [.refused .chunkTooLong]) := by decide

theorem test_fwActset :
    after (.fwActset 0xABCD 0x0102 0xE5CC 0x00 0x01) State.reset State.outlog =
      some [[0x7A, 0x08, 0xAB, 0xCD, 0x01, 0x02, 0xE5, 0xCC, 0x00, 0x01]] := by decide

theorem test_fwDecreq_own_update_get :
    after (.fwDecreq [0x7A, 0x05, 0xAB, 0x7A, 0x05, 0x03, 0x00, 0x01]) State.reset State.reslog =
      some [.desc 1 3] := by decide

theorem test_fwDecreq_shifted_trailer :
    after (.fwDecreq [0x7A, 0x05, 0x28, 0x00, 0x01, 0x00]) State.reset State.reslog = some [.noDesc] := by decide

/-! ## Relay framer (`95_test_vectors.md` section 2.3) -/

theorem test_recEncode_little_endian :
    after (.recEncode 0x30 0x00 (List.replicate 300 0)) State.reset
      (fun t => t.outlog.map fun f => (f.length, f.take 4)) = some [(304, [0x30, 0x00, 0x2C, 0x01])] := by
  decide +kernel

theorem test_recEncode_bad_tag_first :
    after (.recEncode 0x21 0x02 []) State.reset (fun t => (t.outlog, t.reslog)) =
      some ([], [.refused .badTag]) := by decide

theorem test_reqDecode :
    after (.reqDecode [0x00, 0x2C, 0x01]) State.reset State.reslog = some [.req 0 300] := by decide

theorem test_reqDecode_two_bytes :
    after (.reqDecode [0x00, 0x40]) State.reset (fun t => (t.reslog, relay t)) =
      some ([.err .relayShortRead 2], (.idle, 0x00, 0, .none)) := by decide

theorem test_rfStartBridge :
    after .rfStartBridge (ready []) (fun t => (t.txlog, relay t)) =
        some ([0x20, 0x01, 0x00, 0x00], (.awaitReq, 0x20, 0, .none)) ∧
      after .rfStartBridge (ready []) State.reslog = some [.ok] := by decide

theorem test_rfStartBridge_no_file :
    after .rfStartBridge State.reset (fun t => (t.txlog, relay t)) = some ([], (.idle, 0x00, 0, .fileOpenFailed)) ∧
      after .rfStartBridge State.reset State.reslog = some [.err .fileOpenFailed 0] := by decide

theorem test_rfStartNcp_size_little_endian :
    after (.rfStartNcp 0x00012345 digest) (ready []) State.txlog =
      some ([0x30, 0x01, 0x14, 0x00, 0x45, 0x23, 0x01, 0x00] ++ digest) := by decide

theorem test_rfStartNode_mixed_endian :
    after (.rfStartNode 100 0x0105 digest) (ready []) State.txlog =
      some ([0x40, 0x01, 0x16, 0x00, 0x64, 0x00, 0x00, 0x00, 0x01, 0x05] ++ digest) := by decide

theorem test_rfPull_exact_end_sends_no_sentinel :
    after (.rfPull [0x7E, 0x03, 0x00]) (inSession .awaitReq 0x40 5 .none file8) (fun t => (t.txlog, relay t)) =
      some ([0x40, 0x00, 0x03, 0x00, 0x66, 0x77, 0x88], (.awaitReq, 0x40, 8, .none)) := by decide

theorem test_rfPull_past_the_end_is_done :
    after (.rfPull [0x00, 0x01, 0x00]) (inSession .awaitReq 0x40 8 .none file8) (fun t => (t.txlog, relay t)) =
      some ([0x40, 0x00, 0x00, 0x00, 0x40, 0x00, 0x00, 0x00], (.done, 0x40, 8, .none)) := by decide

theorem test_rfAbort :
    after .rfAbort (inSession .awaitReq 0x30 64 .none []) (fun t => (t.txlog, relay t)) =
      some ([], (.failed, 0x30, 64, .connClosed)) := by decide

theorem test_rfAbort_not_enabled : faultOf (exec .rfAbort (inSession .done 0x30 64 .none [])) = some .abortNotEnabled := by
  decide

/-- `95_test_vectors.md` section 2.4. -/
theorem test_sysReset :
    after .sysReset { inSession .failed 0x30 64 .relayShortRead [] with crc := 0x8ADA, txlog := [0x30] }
      (fun t => (t.crc, t.txlog, relay t)) = some (0x1D0F, [], (.idle, 0x00, 0, .none)) := by decide

/-- `95_test_vectors.md` S3 and S8: 100 bytes are 3 chunks. -/
theorem test_total_chunk_counts : [0, 1, 40, 41, 100, 65535].map totalChunkCount = [0, 1, 1, 2, 3, 1639] := by decide

/-! ## Witnesses: a state and operands that meet the hypotheses of each statement -/

/-- A waiting session over `file8` that has sent its header and one data record, as the rules leave it. -/
def waiting : State :=
  { inSession .awaitReq 0x20 5 .none file8 with
    txlog := [0x20, 0x01, 0x00, 0x00, 0x20, 0x00, 0x05, 0x00, 0x11, 0x22, 0x33, 0x44, 0x55]
    rxlog := [0x00, 0x05, 0x00] }

theorem waiting_inv : Inv waiting :=
  ⟨by decide, rfl, rfl, by decide, by decide, [], [[0x11, 0x22, 0x33, 0x44, 0x55]], .inl ⟨rfl, rfl⟩, by decide, by decide,
    by decide, by decide⟩

/-- The same session ended by the request for the rest and one more. -/
def finished : State :=
  { waiting with
    rfState := .done, rfPos := 8
    txlog := waiting.txlog ++ [0x20, 0x00, 0x03, 0x00, 0x66, 0x77, 0x88, 0x20, 0x00, 0x00, 0x00]
    rxlog := waiting.rxlog ++ [0x00, 0x04, 0x00] }

theorem finished_inv : Inv finished :=
  ⟨by decide, rfl, file8, by decide, [], [[0x11, 0x22, 0x33, 0x44, 0x55], [0x66, 0x77, 0x88]], .inl ⟨rfl, rfl⟩, by decide,
    by decide, by decide, by decide⟩

/-- The same session ended by a closed connection. -/
def broken : State := { waiting with rfState := .failed, rfCause := .connClosed }

theorem broken_inv : Inv broken :=
  ⟨by decide, .inr rfl, file8.take 5, by decide, [], [[0x11, 0x22, 0x33, 0x44, 0x55]], .inl ⟨rfl, rfl⟩, by decide, by decide,
    by decide, by decide⟩

theorem witness_ChecksumIsLinearOverXor : ([0x01, 0x02] : Bytes).length = ([0x09, 0x08] : Bytes).length := rfl

theorem witness_ChecksumSeparates : crcFrom 0x1D0F [0x41, 0x42] = crcFrom 0x1D0F [0x41, 0x42] := rfl

theorem witness_ChecksumIsOrderSensitive : crc16 [0x41, 0x00, 0x41] = crc16 [0x41, 0x00, 0x41].reverse := rfl

theorem witness_OnlyFiveOperationsWriteCrc :
    (∃ t, exec (.rfPull [0x00, 0x01, 0x00]) waiting = .next t) ∧
      (Instr.rfPull [0x00, 0x01, 0x00]).op ∉ ([.crcInit, .crcByte, .crcCompute, .fwReport, .sysReset] : List Op) :=
  ⟨⟨_, rfl⟩, by decide⟩

theorem witness_OnlyByteAndReadReadCrc :
    (∃ t, exec (.fwReport 1 true []) waiting = .next t) ∧
      (Instr.fwReport 1 true []).op ∉ ([.crcByte, .crcRead] : List Op) :=
  ⟨⟨_, rfl⟩, by decide⟩

theorem witness_UpdateGetIsBigEndian :
    (0xABCD : Word16).toNat = (0xAB : Byte).toNat * 256 + (0xCD : Byte).toNat ∧
      (0xFFFF : Word16).toNat = (0xFF : Byte).toNat * 256 + (0xFF : Byte).toNat ∧
      (0x0000 : Word16).toNat = (0x00 : Byte).toNat * 256 + (0x00 : Byte).toNat := by decide

theorem witness_ActiveSetIsBigEndian :
    (0xABCD : Word16).toNat = (0xAB : Byte).toNat * 256 + (0xCD : Byte).toNat ∧
      (0x0102 : Word16).toNat = (0x01 : Byte).toNat * 256 + (0x02 : Byte).toNat ∧
      (0xE5CC : Word16).toNat = (0xE5 : Byte).toNat * 256 + (0xCC : Byte).toNat := by decide

theorem witness_UpdateReport_boundaries :
    40 < (List.replicate 41 (0 : Byte)).length ∧ (List.replicate 40 (0 : Byte)).length ≤ 40 := by simp

theorem witness_EnvelopedReport_boundaries :
    (List.replicate 40 (0 : Byte)).length ≤ 40 ∧ ([] : Bytes).length ≤ 40 := by simp

theorem witness_ChunkRequest_descriptor :
    ([0x7A, 0x05, 0xFF, 0xFF, 0xFF] : Bytes) = [] ++ [0x7A, 0x05, 0xFF, 0xFF, 0xFF] ∧
      (0xFFFF : Word16).toNat = (0xFF : Byte).toNat * 256 + (0xFF : Byte).toNat := by decide

theorem witness_ChunkRequest_four_bytes (before : Bytes) (size idHi idLo : Byte) :
    ([0x7A, 0x05, 0x03, 0x00] : Bytes) ≠ before ++ [0x7A, 0x05, size, idHi, idLo] := by
  intro h
  have := congrArg List.length h
  simp at this

theorem witness_ChunkRequest_other_command (before : Bytes) (size idHi idLo : Byte) :
    ([0x7A, 0x06, 0x03, 0x00, 0x01] : Bytes) ≠ before ++ [0x7A, 0x05, size, idHi, idLo] := by
  intro h
  have hb : before = [] := by
    simpa using congrArg List.length h
  subst hb
  simp at h

theorem witness_CodecEncoders :
    isCodecEncoder (.fwReport 1 true (List.replicate 40 0)) = true ∧ (List.replicate 40 (0 : Byte)).length ≤ 40 ∧
      ([.envEncode [] 0 0 0, .fwMdget, .fwReqget 0 0 0 0, .fwUpdget 0 0 0, .fwActset 0 0 0 0 0] : List Instr).all
        isCodecEncoder = true := by decide

theorem witness_RecordEncoding_clauses :
    (0x21 : Byte) ∉ ([0x20, 0x30, 0x40] : List Byte) ∧
      ((0x20 : Byte) ∈ ([0x20, 0x30, 0x40] : List Byte) ∧ (0x02 : Byte) ∉ ([0x00, 0x01] : List Byte)) ∧
      ((0x40 : Byte) ∈ ([0x20, 0x30, 0x40] : List Byte) ∧ (0x01 : Byte) ∈ ([0x00, 0x01] : List Byte)) := by decide

theorem witness_RecordEncoding_boundaries :
    65535 < (List.replicate 65536 (0 : Byte)).length ∧
      ((List.replicate 65535 (0 : Byte)).length ≤ 65535 ∧
        (List.replicate 65535 (0 : Byte)).length = (0xFF : Byte).toNat + 256 * (0xFF : Byte).toNat) ∧
      (([] : Bytes).length = (0x00 : Byte).toNat + 256 * (0x00 : Byte).toNat) := by
  rw [List.length_replicate, List.length_replicate]
  decide

theorem witness_PullRequestDecoding_boundaries :
    3 < ([0x00, 0x00, 0x00, 0x00] : Bytes).length ∧ ([0x00, 0x40] : Bytes).length < 3 ∧
      ((0xFFFF : Word16).toNat = (0xFF : Byte).toNat + 256 * (0xFF : Byte).toNat) := by decide

/-- The three cases of a start (bridge, ncp, node). -/
theorem witness_starts :
    waiting.rfState ≠ .idle ∧ (State.reset.rfState = .idle ∧ State.reset.fileOpen = false) ∧
      ((ready file8).rfState = .idle ∧ (ready file8).fileOpen = true) := by decide

theorem witness_start_operands :
    digest.length = 16 ∧
      (0x00012345 : Word32).toNat =
        (0x00 : Byte).toNat * 16777216 + (0x01 : Byte).toNat * 65536 + (0x23 : Byte).toNat * 256 +
          (0x45 : Byte).toNat ∧
      (0x0105 : Word16).toNat = (0x01 : Byte).toNat * 256 + (0x05 : Byte).toNat := by decide

theorem witness_Pull_session :
    waiting.rfState = .awaitReq ∧ waiting.rfPos.toNat ≤ waiting.file.length ∧ waiting.file.length ≤ 4294967295 := by
  decide

/-- A request for exactly the 3 bytes left, and one for a byte more. -/
theorem witness_Pull_boundaries :
    let full := (waiting.file.drop waiting.rfPos.toNat).take 3
    let short := (waiting.file.drop waiting.rfPos.toNat).take 4
    (full.length = 3 ∧ full.length = (0x03 : Byte).toNat + 256 * (0x00 : Byte).toNat) ∧
      (short.length < 4 ∧ short.length = (0x03 : Byte).toNat + 256 * (0x00 : Byte).toNat) := by decide

theorem witness_ShortRead :
    waiting.rfState = .awaitReq ∧ ([0x00, 0x28] : Bytes).length < 3 ∧ ([] : Bytes).length < 3 := by decide

theorem witness_Abort : waiting.rfState = .awaitReq ∧ finished.rfState ≠ .awaitReq := by decide

theorem witness_EventsOutsideASession :
    State.reset.rfState ≠ .awaitReq ∧ finished.rfState ≠ .awaitReq ∧ broken.rfState ≠ .awaitReq := by decide

theorem witness_PullAtEndOfFile :
    (inSession .awaitReq 0x40 8 .none file8).rfState = .awaitReq ∧
      (inSession .awaitReq 0x40 8 .none file8).rfPos.toNat = (inSession .awaitReq 0x40 8 .none file8).file.length ∧
      ((0x00 : Byte) ≠ 0 ∨ (0x01 : Byte) ≠ 0) := by decide

/-- Each entry of the transition table is reached by some operation: a start in each column, requests for the 3 bytes left
and for one more. -/
theorem witness_RelayPhase :
    after .sysReset waiting State.rfState = some .idle ∧ after .rfStartBridge (ready []) State.rfState = some .awaitReq ∧
      after .rfStartBridge State.reset State.rfState = some .idle ∧
      after .rfStartBridge finished State.rfState = some .done ∧
      after (.rfPull [0x00, 0x03, 0x00]) waiting State.rfState = some .awaitReq ∧
      after (.rfPull [0x00, 0x04, 0x00]) waiting State.rfState = some .done ∧
      after (.rfPull [0x00, 0x28]) waiting State.rfState = some .failed ∧
      after .rfAbort waiting State.rfState = some .failed := by decide

theorem witness_EndedSession :
    finished.rfState = .done ∧ broken.rfState = .failed ∧ (∃ t, exec .rfStartBridge finished = .next t) ∧
      (∃ t, exec .sysReset broken = .next t) ∧ Instr.rfStartBridge ≠ .sysReset :=
  ⟨rfl, rfl, ⟨_, rfl⟩, ⟨_, rfl⟩, by decide⟩

/-- Also for `TagIsFixedForTheSession`, `NothingIsSentUnsolicited`, `NoOperationWritesTheEnvironment`. -/
theorem witness_PositionNeverDecreases :
    Inv waiting ∧ (∃ t, exec (.rfPull [0x00, 0x03, 0x00]) waiting = .next t) ∧ waiting.rfState = .awaitReq ∧
      isStart (.rfPull [0x00, 0x03, 0x00]) = false :=
  ⟨waiting_inv, ⟨_, rfl⟩, rfl, rfl⟩

theorem witness_SideCommands :
    waiting.rfState = .awaitReq ∧ isSideCommand (.crcByte 0x31) = true ∧ isSideCommand (.reqDecode []) = true ∧
      isStart (.rfStartNcp 100 digest) = true := by decide

theorem witness_RefusalConditions :
    RefusalCondition .chunkTooLong (.fwReport 1 false (List.replicate 41 0)) State.reset ∧
      RefusalCondition .badTag (.recEncode 0x21 0x00 []) State.reset ∧
      RefusalCondition .badRecordType (.recEncode 0x20 0x02 []) State.reset ∧
      RefusalCondition .payloadTooLong (.recEncode 0x20 0x00 (List.replicate 65536 0)) State.reset ∧
      RefusalCondition .badRequestLength (.reqDecode [0, 0, 0, 0]) State.reset ∧
      RefusalCondition .sessionNotIdle .rfStartBridge finished :=
  ⟨⟨_, _, _, rfl, by simp⟩, ⟨_, _, _, rfl, by decide⟩, ⟨_, _, _, rfl, by decide, by decide⟩,
    ⟨_, _, _, rfl, by decide, by decide, by rw [List.length_replicate]; decide⟩, ⟨_, rfl, by decide⟩, rfl, by decide⟩

theorem witness_RefusalAnswered :
    exec .rfStartBridge finished = .next { finished with reslog := finished.reslog ++ [.refused .sessionNotIdle] } := rfl

theorem witness_HistoriesOnlyGrow :
    SameBlock waiting { waiting with txlog := [], outlog := [[0x7A]], reslog := [.ok] } ∧
      ∃ s', exec (.rfPull [0x00, 0x04, 0x00]) waiting = .next s' :=
  ⟨⟨rfl, rfl, rfl, rfl, rfl, rfl, rfl⟩, _, rfl⟩

theorem witness_EveryEnabledOperation :
    (Instr.rfAbort.op = .rfPull ∨ Instr.rfAbort.op = .rfAbort → waiting.rfState = .awaitReq) ∧
      (Instr.crcInit.op = .rfPull ∨ Instr.crcInit.op = .rfAbort → finished.rfState = .awaitReq) :=
  ⟨fun _ => rfl, by decide⟩

/-- `waiting` with one input presented. -/
def presented (input : Input) (s : State) : State := { s with inputs := [input] }

theorem witness_StepExecutes :
    (presented (.op [0x35, 0x00, 0x04, 0x00]) waiting).inputs = [.op [0x35, 0x00, 0x04, 0x00]] ∧
      decode [0x35, 0x00, 0x04, 0x00] = .ok (.rfPull [0x00, 0x04, 0x00]) := by decide

theorem witness_UnassignedOp :
    ∀ b ∈ ([0x01, 0x0F, 0x14, 0x22, 0x2E, 0x37, 0xFF] : List Byte),
      b ∉ ([0x00, 0x10, 0x11, 0x12, 0x13, 0x20, 0x21, 0x23, 0x25, 0x26, 0x28, 0x2F, 0x30, 0x31, 0x32, 0x33, 0x34, 0x35,
        0x36] : List Byte) := by decide

theorem witness_NothingPresented :
    (waiting.inputs = [] ∧ waiting.rfState = .awaitReq) ∧ (State.reset.inputs = [] ∧ State.reset.rfState ≠ .awaitReq) := by
  decide

theorem witness_FileChanges :
    ((presented (.fileReady file8) State.reset).inputs = [.fileReady file8] ∧ State.reset.rfState ≠ .awaitReq) ∧
      ((presented .fileUnavailable finished).inputs = [.fileUnavailable] ∧ finished.rfState ≠ .awaitReq) ∧
      ((presented (.fileReady []) waiting).inputs = [.fileReady []] ∧ waiting.rfState = .awaitReq) := by decide

theorem witness_FileChanges_longest : (List.replicate 4294967295 (0 : Byte)).length ≤ 4294967295 := by
  rw [List.length_replicate]

/-- The step that ends `waiting` in DONE, for `StepKeepsTheInvariant` and `DoneMeansTheWholeFileWasRelayed`. -/
theorem witness_StepsFromWaiting :
    Inv (presented (.op [0x35, 0x00, 0x04, 0x00]) waiting) ∧
      step (presented (.op [0x35, 0x00, 0x04, 0x00]) waiting) = .next finished :=
  ⟨waiting_inv, rfl⟩

/-- Steps out of DONE, out of FAILED and out of IDLE that answer. -/
theorem witness_StepsElsewhere :
    (Inv finished ∧ ∃ t, step (presented (.op [0x00]) finished) = .next t) ∧
      (Inv broken ∧ ∃ t, step (presented .fileUnavailable broken) = .next t) ∧
      (∃ t, step (presented (.op [0x32]) (ready file8)) = .next t) :=
  ⟨⟨finished_inv, _, rfl⟩, ⟨broken_inv, _, rfl⟩, _, rfl⟩

theorem witness_Peer :
    LegalMetadata 0x20 [] ∧ LegalMetadata 0x30 (ncpMetadata 100 digest) ∧ LegalMetadata 0x40 (nodeMetadata 100 1 digest) ∧
      ∀ c ∈ ([List.replicate 65535 0, []] : List Bytes), c.length ≤ 65535 :=
  ⟨.inl ⟨rfl, rfl⟩, .inr (.inl ⟨rfl, rfl⟩), .inr (.inr ⟨rfl, rfl⟩), by
    intro c hc
    simp only [List.mem_cons, List.not_mem_nil, or_false] at hc
    obtain rfl | rfl := hc
    · rw [List.length_replicate]
    · simp⟩

theorem witness_DecodeInvertsEncode :
    (Instr.rfStartNode 100 1 digest).wf = true ∧ (Instr.rfPull [0x00, 0x00, 0x00]).wf = true ∧
      (Instr.rfPull []).wf = true := by decide

/-- A session over an image of `n` zero bytes, at its beginning. -/
def transfer (n : Nat) : TransferSession := .start (List.replicate n 0) 0xFE .perDatagram (0xA5, 0x5A) true

theorem transfer_wf (n : Nat) : (transfer n).wf := ⟨rfl, rfl⟩

/-- Images of one byte and of 32767 chunks, the least and the most that a request for all chunks can deliver. -/
theorem witness_Delivering_boundaries :
    ((transfer 1).wf ∧ (transfer 1).firmware ≠ [] ∧ (transfer 1).totalChunkCount < 32768) ∧
      ((transfer 1310680).wf ∧ (transfer 1310680).totalChunkCount < 32768) := by
  refine ⟨⟨transfer_wf 1, by decide, by decide⟩, transfer_wf 1310680, ?_⟩
  simp only [transfer, TransferSession.start, List.length_replicate]
  decide

/-- An acknowledged session goes on, whatever ACK_REQUIRED is. -/
theorem transfer_goesOn (n : Nat) : (transfer n).goesOn = true := by
  simp [transfer, TransferSession.start, TransferSession.goesOn, mayProceed]

/-- P2, with two datagrams sent before: the counter passes FF and wraps, and the last report's byte 2 is 80. -/
theorem test_deliver_counts_datagrams :
    (deliver { transfer 100 with sent := [[]] } { index := 1, size := 3 } State.reset).map
        (fun r => (r.1.sent.map fun d => (d.take 5, d.getD 9 0), r.2.2)) =
      some ([([], 0x00), ([0x23, 0x02, 0xA5, 0x5A, 0xFE], 0x00), ([0x23, 0x02, 0xA5, 0x5A, 0xFF], 0x00),
        ([0x23, 0x02, 0xA5, 0x5A, 0x00], 0x80)], .lastSent) := by decide +kernel

theorem witness_Registry :
    Registry.wf ([⟨1, 10⟩, ⟨2, 20⟩] : Registry Nat Nat) ∧ (1 : Nat) ≠ 2 := by decide

/-- Two connections: the first one's peer is gone, the second waits in a session. -/
def twoConnections : Connections Nat Nat where
  registry := [⟨2, 20⟩]
  bindings := [⟨20, waiting, true⟩, ⟨10, State.reset, false⟩]

/-- Each kind of event has a next state, and so has the end of either kind. -/
theorem witness_Connections :
    twoConnections.wf ∧ (∃ d, connectionStep (.accept 3 30) twoConnections = some d) ∧
      (∃ d, connectionStep (.disconnect 20 .forced) twoConnections = some d) ∧
      (∃ d, connectionStep (.close 20 .emptyRead) twoConnections = some d) ∧
      (∃ d, connectionStep (.operate 20 .rfAbort) twoConnections = some d) ∧
      (∃ d, connectionStep (.fileReady 10 file8) twoConnections = some d) ∧
      (∃ d, connectionStep (.fileUnavailable 10) twoConnections = some d) ∧
      twoConnections.registry.resolve 2 = some 20 ∧ twoConnections.registry.resolve 3 ≠ some 20 :=
  ⟨⟨by decide, by decide, by decide, by decide⟩, ⟨_, rfl⟩, ⟨_, rfl⟩, ⟨_, rfl⟩, ⟨_, rfl⟩, ⟨_, rfl⟩, ⟨_, rfl⟩, rfl,
    by decide⟩

/-- A connection from accept to the end of its session: the file is opened, the session started, two reads served, and the
third is no longer made. -/
theorem test_connection_runs_a_session :
    ((((connectionStep (.accept 3 30) twoConnections).bind (connectionStep (.fileReady 30 [0x11, 0x22]))).bind
        (connectionStep (.operate 30 .rfStartBridge))).map
        fun c => (receiveLoop 30 [[0x00, 0x01, 0x00], [0x00, 0x02, 0x00], [0x00, 0x01, 0x00]] c)).map
        (fun r => ((r.1.streamOf 30).map Prod.fst, r.2)) =
      some (some [0x20, 0x01, 0x00, 0x00, 0x20, 0x00, 0x01, 0x00, 0x11, 0x20, 0x00, 0x01, 0x00, 0x22, 0x20, 0x00, 0x00,
        0x00], [[0x00, 0x01, 0x00]]) := by decide +kernel

end Sys2Proof.Tests
end

section
/-! PROOFS. Reset: the fields of the state after reset that `10_state.md` R32 names, each with its own lemma. -/

namespace Sys2Proof.Machine

@[simp] theorem State.reset_crc : State.reset.crc = crcInitial := rfl
@[simp] theorem State.reset_rfState : State.reset.rfState = .idle := rfl
@[simp] theorem State.reset_rfTag : State.reset.rfTag = 0 := rfl
@[simp] theorem State.reset_rfPos : State.reset.rfPos = 0 := rfl
@[simp] theorem State.reset_rfCause : State.reset.rfCause = .none := rfl
@[simp] theorem State.reset_outlog : State.reset.outlog = [] := rfl
@[simp] theorem State.reset_txlog : State.reset.txlog = [] := rfl

@[simp] theorem RfState.code_idle : RfState.idle.code = 0 := rfl
@[simp] theorem Cause.code_none : Cause.none.code = 0 := rfl

/-- Settles O1, field by field; RF.STATE and RF.CAUSE by their 2-bit codes (R20). -/
theorem resetLeavesTheSpecifiedValues : Obligations.ResetLeavesTheSpecifiedValues := by
  unfold Obligations.ResetLeavesTheSpecifiedValues
  have hState : State.reset.rfState.code = 0 := by rw [State.reset_rfState, RfState.code_idle]
  have hCause : State.reset.rfCause.code = 0 := by rw [State.reset_rfCause, Cause.code_none]
  exact ⟨State.reset_crc, hState, State.reset_rfTag, State.reset_rfPos, hCause, State.reset_outlog, State.reset_txlog⟩

end Sys2Proof.Machine
end

section
/-! PROOFS. Encoding: a field is the join of the bytes its value is given by (`30_encoding.md` R73, R74). -/

namespace Sys2Proof.Machine

theorem le16_joinLE16 (a b : Byte) : le16 (joinLE16 a b) = [a, b] :=
  congrArg List.reverse (be16_joinBE16 b a)

theorem le32_joinBE32 (a b c d : Byte) : le32 (joinBE32 a b c d) = [d, c, b, a] :=
  congrArg List.reverse (be32_joinBE32 a b c d)

theorem eq_joinBE16_of_toNat {v : Word16} {a b : Byte} (h : v.toNat = a.toNat * 256 + b.toNat) :
    v = joinBE16 a b :=
  BitVec.eq_of_toNat_eq (h.trans (joinBE16_toNat a b).symm)

theorem eq_joinBE32_of_toNat {v : Word32} {a b c d : Byte}
    (h : v.toNat = a.toNat * 16777216 + b.toNat * 65536 + c.toNat * 256 + d.toNat) : v = joinBE32 a b c d :=
  BitVec.eq_of_toNat_eq (h.trans (joinBE32_toNat a b c d).symm)

/-- Settles O54: a value given by its bytes is their join, and splitting a join gives the bytes back; the report number
has 15 bits, so byte 2 is a sum. -/
theorem fieldsAreAssembledExactly : Obligations.FieldsAreAssembledExactly := by
  unfold Obligations.FieldsAreAssembledExactly
  refine ⟨fun v a b hv => ?_, fun v a b c d hv => ?_, fun n last => ?_⟩
  · obtain rfl := eq_joinBE16_of_toNat hv
    exact ⟨be16_joinBE16 a b, rfl, le16_joinLE16 b a, rfl⟩
  · obtain rfl := eq_joinBE32_of_toNat hv
    exact le32_joinBE32 a b c d
  · exact ⟨reportByte2_toNat n last, reportByte3_toNat n⟩

end Sys2Proof.Machine
end

section
/-! PROOFS. Crc: the bit and byte steps, the checksum's fold, and the register's commands (`40_crc.md` R90 to R95). -/

namespace Sys2Proof.Machine

/-- The shift of R90 on naturals: twice the register with bit 15 dropped. -/
theorem toNat_shiftLeft_one (r : Word16) : (r <<< 1).toNat = 2 * r.toNat % 65536 := by
  rw [BitVec.toNat_shiftLeft, Nat.shiftLeft_eq, Nat.pow_one, Nat.mul_comm]

@[simp] theorem crcPoly_toNat : crcPoly.toNat = 0x1021 := rfl

/-- The transient bit of R90 is set exactly when bit 15 of the register, read on naturals, differs from the data bit. -/
theorem msb_xor_iff_ne (r : Word16) (b : Bool) : (r.msb ^^ b) = true ↔ decide (32768 ≤ r.toNat) ≠ b := by
  rw [BitVec.msb_eq_decide]
  exact Bool.xor_iff_ne

/-- Settles O3: the shift and the choice of the polynomial, each read on naturals. -/
theorem crcBitShiftsThenXorsThePolynomial : Obligations.CrcBitShiftsThenXorsThePolynomial := by
  unfold Obligations.CrcBitShiftsThenXorsThePolynomial
  intro r b
  rw [crcBit_eq, BitVec.toNat_xor, toNat_shiftLeft_one]
  by_cases h : decide (32768 ≤ r.toNat) = b
  · have hClear : ¬ (r.msb ^^ b) = true := fun hSet => (msb_xor_iff_ne r b).1 hSet h
    rw [if_neg hClear, if_pos h]
    rfl
  · have hSet : (r.msb ^^ b) = true := (msb_xor_iff_ne r b).2 h
    rw [if_pos hSet, if_neg h, crcPoly_toNat]

/-- Settles O4: the fold over the eight bit numbers, written out. -/
theorem crcByteTakesBitsHighToLow : Obligations.CrcByteTakesBitsHighToLow := by
  unfold Obligations.CrcByteTakesBitsHighToLow
  intro r d
  simp only [crcByte, List.foldl_cons, List.foldl_nil]

/-- Settles O5: the checksum of an appended byte is one more byte step from the checksum before it. -/
theorem checksumFoldsBytesInOrder : Obligations.ChecksumFoldsBytesInOrder := by
  unfold Obligations.ChecksumFoldsBytesInOrder
  refine ⟨crc16_nil, fun m d => ?_⟩
  rw [crc16_append, crcFrom_cons, crcFrom_nil]

/-- What an answer leaves (R8): one more value on RES and nothing else. -/
theorem State.respond_eq (s : State) (v : Res) : s.respond v = { s with reslog := s.reslog ++ [v] } := rfl

/-- What writing CRC and answering leaves: the two fields and nothing else. -/
theorem State.respond_setCrc_eq (s : State) (c : CrcWord) (v : Res) :
    (s.setCrc c).respond v = { s with crc := c, reslog := s.reslog ++ [v] } := rfl

theorem exec_crcInit (s : State) : exec .crcInit s = .next ((s.setCrc crcInitial).respond .ok) := rfl

theorem exec_crcByte (d : Byte) (s : State) :
    exec (.crcByte d) s = .next ((s.setCrc (crcByte s.crc d)).respond .ok) := rfl

theorem exec_crcRead (s : State) : exec .crcRead s = .next (s.respond (.value16 s.crc)) := rfl

/-- Settles O6: CRC.INIT writes the initial value and answers. -/
theorem crcInitLoadsTheInitialValue : Obligations.CrcInitLoadsTheInitialValue := by
  unfold Obligations.CrcInitLoadsTheInitialValue
  intro s
  rw [exec_crcInit, State.respond_setCrc_eq, crcInitial]

/-- Settles O7: CRC.BYTE writes the byte step of CRC and answers. -/
theorem crcByteAdvancesTheRegister : Obligations.CrcByteAdvancesTheRegister := by
  unfold Obligations.CrcByteAdvancesTheRegister
  intro d s
  rw [exec_crcByte, State.respond_setCrc_eq]

/-- Settles O8: CRC.READ answers and writes no register. -/
theorem crcReadAnswersTheRegister : Obligations.CrcReadAnswersTheRegister := by
  unfold Obligations.CrcReadAnswersTheRegister
  intro s
  rw [exec_crcRead, State.respond_eq]

end Sys2Proof.Machine
end

section
/-! PROOFS. Codec: what each encoder returns, and what the chunk-request decoder reads (`41_packet_codec.md` R101 to
R109). -/

namespace Sys2Proof.Machine

/-- What returning a frame leaves (R8): one more frame in OUTLOG and nothing else. -/
theorem State.out_eq (s : State) (frame : Bytes) : s.out frame = { s with outlog := s.outlog ++ [frame] } := rfl

theorem exec_envEncode (payload : Bytes) (seq flags0 flags1 : Byte) (s : State) :
    exec (.envEncode payload seq flags0 flags1) s = .next (s.out (envelopeFrame payload seq flags0 flags1)) := rfl

theorem exec_fwMdget (s : State) : exec .fwMdget s = .next (s.out mdgetFrame) := rfl

theorem exec_fwReqget (vendor fw ck target : Byte) (s : State) :
    exec (.fwReqget vendor fw ck target) s = .next (s.out (reqgetFrame vendor fw ck target)) := rfl

theorem exec_fwUpdget (vendor fw ck : Word16) (s : State) :
    exec (.fwUpdget vendor fw ck) s = .next (s.out (updgetFrame vendor fw ck)) := rfl

theorem exec_fwActset (vendor fw ck : Word16) (target hw : Byte) (s : State) :
    exec (.fwActset vendor fw ck target hw) s = .next (s.out (actsetFrame vendor fw ck target hw)) := rfl

theorem exec_fwDecreq (raw : Bytes) (s : State) :
    exec (.fwDecreq raw) s = .next (s.respond (decodeChunkRequest raw)) := rfl

/-- FW.REPORT with a chunk over CHUNK_SIZE (R106, D10). -/
theorem exec_fwReport_of_gt {chunk : Bytes} (h : 40 < chunk.length) (n : Word15) (last : Bool) (s : State) :
    exec (.fwReport n last chunk) s = .next { s with reslog := s.reslog ++ [.refused .chunkTooLong] } := by
  obtain ⟨-, e⟩ | ⟨hShort, -⟩ := execFwReport_cases n last chunk s
  · exact e
  · omega

/-- FW.REPORT with a chunk that fits (R106): the checksum goes to CRC and to the end of the frame. -/
theorem exec_fwReport_of_le {chunk : Bytes} (h : chunk.length ≤ 40) (n : Word15) (last : Bool) (s : State) :
    exec (.fwReport n last chunk) s =
      .next { s with
        crc := crc16 (reportBody n last chunk)
        outlog := s.outlog ++ [reportBody n last chunk ++ be16 (crc16 (reportBody n last chunk))] } := by
  obtain ⟨hLong, -⟩ | ⟨-, e⟩ := execFwReport_cases n last chunk s
  · omega
  · exact e

/-! The frames, with numerals in place of the constants -/

theorem envelopeFrame_eq (payload : Bytes) (seq flags0 flags1 : Byte) :
    envelopeFrame payload seq flags0 flags1 = [0x23, 0x02, flags0, flags1, seq, 0x00, 0x00] ++ payload := rfl

theorem mdgetFrame_eq : mdgetFrame = [0x7A, 0x01] := rfl

theorem reqgetFrame_eq (vendor fw ck target : Byte) :
    reqgetFrame vendor fw ck target = [0x7A, 0x03, vendor, fw, ck, target, 0x00, 0x28, 0x00, 0x01] := rfl

theorem reportBody_eq (n : Word15) (last : Bool) (chunk : Bytes) :
    reportBody n last chunk = [0x7A, 0x06, reportByte2 n last, reportByte3 n] ++ chunk := rfl

/-- Update Get of three fields given by their bytes (R64): class, command, and each field's bytes as given. -/
theorem updgetFrame_joinBE16 (v1 v0 f1 f0 c1 c0 : Byte) :
    updgetFrame (joinBE16 v1 v0) (joinBE16 f1 f0) (joinBE16 c1 c0) = [0x7A, 0x05, v1, v0, f1, f0, c1, c0] := by
  simp only [updgetFrame, be16_joinBE16]
  rfl

/-- Active Set of three fields given by their bytes (R65), and its two one-byte operands. -/
theorem actsetFrame_joinBE16 (v1 v0 f1 f0 c1 c0 target hw : Byte) :
    actsetFrame (joinBE16 v1 v0) (joinBE16 f1 f0) (joinBE16 c1 c0) target hw =
      [0x7A, 0x08, v1, v0, f1, f0, c1, c0, target, hw] := by
  simp only [actsetFrame, be16_joinBE16]
  rfl

/-! The chunk-request decoder -/

/-- A datagram of at least 5 bytes is any bytes and a trailer of 5 (R68). -/
theorem exists_append_trailer {raw : Bytes} (h : 5 ≤ raw.length) :
    ∃ (before : Bytes) (cls cmd size idHi idLo : Byte), raw = before ++ [cls, cmd, size, idHi, idLo] := by
  have hLength : (raw.drop (raw.length - 5)).length = 5 := by
    rw [List.length_drop]
    omega
  match hTrailer : raw.drop (raw.length - 5), hLength with
  | [cls, cmd, size, idHi, idLo], _ =>
    refine ⟨raw.take (raw.length - 5), cls, cmd, size, idHi, idLo, ?_⟩
    rw [← hTrailer, List.take_append_drop]

theorem decodeChunkRequest_of_length_lt {raw : Bytes} (h : raw.length < 5) : decodeChunkRequest raw = .noDesc :=
  if_pos h

/-- The decoder looks at the trailer alone (R108). -/
theorem decodeChunkRequest_append (before : Bytes) (cls cmd size idHi idLo : Byte) :
    decodeChunkRequest (before ++ [cls, cmd, size, idHi, idLo]) =
      if cls = 0x7A ∧ cmd = 0x05 then .desc (joinBE16 idHi idLo) size else .noDesc := by
  have hLength : (before ++ [cls, cmd, size, idHi, idLo]).length = before.length + 5 := by
    rw [List.length_append]
    rfl
  have hLong : ¬ (before ++ [cls, cmd, size, idHi, idLo]).length < trailerLen := by
    rw [hLength, trailerLen]
    omega
  have hTrailer : (before ++ [cls, cmd, size, idHi, idLo]).drop
      ((before ++ [cls, cmd, size, idHi, idLo]).length - trailerLen) = [cls, cmd, size, idHi, idLo] := by
    rw [hLength, trailerLen, Nat.add_sub_cancel, List.drop_left]
  rw [decodeChunkRequest, if_neg hLong, hTrailer]
  rfl

/-- A datagram that does not end in a chunk request has no descriptor: it is too short, or its trailer begins with
another class or command (R108). -/
theorem decodeChunkRequest_eq_noDesc {raw : Bytes}
    (h : ∀ (before : Bytes) (size idHi idLo : Byte), raw ≠ before ++ [0x7A, 0x05, size, idHi, idLo]) :
    decodeChunkRequest raw = .noDesc := by
  by_cases hShort : raw.length < 5
  · exact decodeChunkRequest_of_length_lt hShort
  · obtain ⟨before, cls, cmd, size, idHi, idLo, rfl⟩ := exists_append_trailer (Nat.le_of_not_lt hShort)
    have hOther : ¬ (cls = 0x7A ∧ cmd = 0x05) := by
      rintro ⟨rfl, rfl⟩
      exact h before size idHi idLo rfl
    rw [decodeChunkRequest_append, if_neg hOther]

/-- Settles O21: the two outcomes of FW.REPORT, its bytes 2 and 3 read on naturals. -/
theorem updateReportCarriesItsChecksum : Obligations.UpdateReportCarriesItsChecksum := by
  unfold Obligations.UpdateReportCarriesItsChecksum
  refine fun n last chunk s => ⟨fun hLong => exec_fwReport_of_gt hLong n last s, fun hShort => ?_⟩
  refine ⟨reportByte2 n last, reportByte3 n, crc16 (reportBody n last chunk), reportByte2_toNat n last,
    reportByte3_toNat n, by rw [reportBody_eq], ?_⟩
  rw [exec_fwReport_of_le hShort, ← reportBody_eq, be16, hi8, lo8]

/-- Settles O23: a trailer 7A 05 gives the descriptor of its last three bytes; without one there is none. -/
theorem chunkRequestIsReadFromTheFinalFiveBytes : Obligations.ChunkRequestIsReadFromTheFinalFiveBytes := by
  unfold Obligations.ChunkRequestIsReadFromTheFinalFiveBytes
  refine fun raw s => ⟨fun before size idHi idLo index hRaw hIndex => ?_, fun hNone => ?_⟩
  · obtain rfl := eq_joinBE16_of_toNat hIndex
    rw [hRaw, exec_fwDecreq, decodeChunkRequest_append, if_pos ⟨rfl, rfl⟩, State.respond_eq]
  · rw [exec_fwDecreq, decodeChunkRequest_eq_noDesc hNone, State.respond_eq]

/-- An operation other than FW.REPORT that only returns one frame, the same in every state, meets R109. -/
theorem returnsOneFrame_of_out {i : Instr} (hOp : i.op ≠ .fwReport) (frame : Bytes)
    (hExec : ∀ s : State, exec i s = .next (s.out frame)) :
    ∃ (frame : Bytes) (c : Word16), ∀ s : State,
      exec i s = .next { s with
        outlog := s.outlog ++ [frame]
        crc := if i.op = .fwReport then c else s.crc } := by
  refine ⟨frame, 0, fun s => ?_⟩
  rw [hExec, State.out_eq, if_neg hOp]

/-- Settles O24: five encoders only return their frame; FW.REPORT also writes CRC, from its operands. -/
theorem codecEncodersReturnOneFrame : Obligations.CodecEncodersReturnOneFrame := by
  unfold Obligations.CodecEncodersReturnOneFrame
  intro i hEncoder hFits
  cases i
  case envEncode payload seq flags0 flags1 =>
    exact returnsOneFrame_of_out nofun _ (exec_envEncode payload seq flags0 flags1)
  case fwMdget => exact returnsOneFrame_of_out nofun _ exec_fwMdget
  case fwReqget vendor fw ck target => exact returnsOneFrame_of_out nofun _ (exec_fwReqget vendor fw ck target)
  case fwUpdget vendor fw ck => exact returnsOneFrame_of_out nofun _ (exec_fwUpdget vendor fw ck)
  case fwActset vendor fw ck target hw =>
    exact returnsOneFrame_of_out nofun _ (exec_fwActset vendor fw ck target hw)
  case fwReport n last chunk =>
    exact ⟨_, _, fun s => exec_fwReport_of_le (hFits n last chunk rfl) n last s⟩
  all_goals cases hEncoder

/-- Settles O16: the seven constant and operand bytes, then the payload. -/
theorem envelopePrependsSevenBytes : Obligations.EnvelopePrependsSevenBytes := by
  unfold Obligations.EnvelopePrependsSevenBytes
  intro payload seq flags0 flags1 s
  rw [exec_envEncode, State.out_eq, envelopeFrame_eq]

/-- Settles O17: the class and the command byte. -/
theorem mdGetIsTwoConstantBytes : Obligations.MdGetIsTwoConstantBytes := by
  unfold Obligations.MdGetIsTwoConstantBytes
  intro s
  rw [exec_fwMdget, State.out_eq, mdgetFrame_eq]

/-- Settles O18: one byte per operand, between the two constant parts. -/
theorem requestGetIsTenBytes : Obligations.RequestGetIsTenBytes := by
  unfold Obligations.RequestGetIsTenBytes
  intro vendor fw ck target s
  rw [exec_fwReqget, State.out_eq, reqgetFrame_eq]

/-- Settles O19: each operand is the join of its bytes, which the frame splits again. -/
theorem updateGetIsBigEndian : Obligations.UpdateGetIsBigEndian := by
  unfold Obligations.UpdateGetIsBigEndian
  intro v1 v0 f1 f0 c1 c0 vendor fw ck s hVendor hFw hCk
  rw [eq_joinBE16_of_toNat hVendor, eq_joinBE16_of_toNat hFw, eq_joinBE16_of_toNat hCk, exec_fwUpdget, State.out_eq,
    updgetFrame_joinBE16]

/-- Settles O20: each 16-bit operand is the join of its bytes, which the frame splits again. -/
theorem activeSetIsBigEndian : Obligations.ActiveSetIsBigEndian := by
  unfold Obligations.ActiveSetIsBigEndian
  intro v1 v0 f1 f0 c1 c0 target hw vendor fw ck s hVendor hFw hCk
  rw [eq_joinBE16_of_toNat hVendor, eq_joinBE16_of_toNat hFw, eq_joinBE16_of_toNat hCk, exec_fwActset, State.out_eq,
    actsetFrame_joinBE16]

end Sys2Proof.Machine
end

section
/-! PROOFS. Relay: the two marshallers of the relay framer, the three starts, the service of a pull request, and the two
ends by error (`42_relay_framer.md` R121 to R131). -/

namespace Sys2Proof.Machine

/-! Records -/

theorem eq_joinLE16_of_toNat {v : Word16} {a b : Byte} (h : v.toNat = a.toNat + 256 * b.toNat) :
    v = joinLE16 a b :=
  BitVec.eq_of_toNat_eq (h.trans (joinLE16_toNat a b).symm)

/-- A record whose payload's length is given by its low and its high byte (R69). -/
theorem record_of_length {payload : Bytes} {lo hi : Byte} (h : payload.length = lo.toNat + 256 * hi.toNat)
    (tag rtype : Byte) : record tag rtype payload = [tag, rtype, lo, hi] ++ payload := by
  have hLength : BitVec.ofNat 16 payload.length = joinLE16 lo hi := by
    rw [h, ← joinLE16_toNat, BitVec.ofNat_toNat, BitVec.setWidth_eq]
  rw [record, hLength, le16_joinLE16]
  rfl

/-- The EOF sentinel (R69): a data record with no payload. -/
theorem record_nil (tag rtype : Byte) : record tag rtype [] = [tag, rtype, 0x00, 0x00] := rfl

/-! A pull request in AWAIT_REQ -/

/-- A read of fewer than 3 bytes (R130). -/
theorem exec_rfPull_of_length_lt {rx : Bytes} {s : State} (hPhase : s.rfState = .awaitReq) (hShort : rx.length < 3) :
    exec (.rfPull rx) s =
      .next { s with rfState := .failed, rfCause := .relayShortRead, rxlog := s.rxlog ++ rx } := by
  obtain ⟨hOther, -⟩ | ⟨-, -, e⟩ | ⟨-, hLong, -⟩ := execRfPull_cases rx s
  · exact absurd hPhase hOther
  · exact e
  · omega

/-- A request of 3 bytes is served for the length in its last two (R128). -/
theorem exec_rfPull_of_three {s : State} (hPhase : s.rfState = .awaitReq) (rtype lo hi : Byte) :
    exec (.rfPull [rtype, lo, hi]) s =
      .next (servePull (joinLE16 lo hi) { s with rxlog := s.rxlog ++ [rtype, lo, hi] }) := by
  obtain ⟨hOther, -⟩ | ⟨-, hShort, -⟩ | ⟨-, -, e⟩ := execRfPull_cases [rtype, lo, hi] s
  · exact absurd hPhase hOther
  · exact absurd hShort (Nat.lt_irrefl 3)
  · exact e

/-- A request that FILE can fill is answered by its data record (R128 steps 3 and 4). -/
theorem exec_rfPull_of_le {s : State} (hPhase : s.rfState = .awaitReq) {rtype lo hi : Byte}
    (hFull : (joinLE16 lo hi).toNat ≤ (memRead s.file s.rfPos.toNat (joinLE16 lo hi).toNat).length) :
    exec (.rfPull [rtype, lo, hi]) s =
      .next { s with
        rfPos := s.rfPos + BitVec.ofNat 32 (memRead s.file s.rfPos.toNat (joinLE16 lo hi).toNat).length
        rxlog := s.rxlog ++ [rtype, lo, hi]
        txlog := s.txlog ++ record s.rfTag rtData (memRead s.file s.rfPos.toNat (joinLE16 lo hi).toNat) } := by
  rw [exec_rfPull_of_three hPhase]
  obtain ⟨-, e⟩ | ⟨hShort, -⟩ := servePull_cases (joinLE16 lo hi) { s with rxlog := s.rxlog ++ [rtype, lo, hi] }
  · rw [e]
  · exact absurd hShort hFull.not_gt

/-- A request for more bytes than FILE has left: the sentinel follows its data record, and the session ends (R129). -/
theorem exec_rfPull_of_lt {s : State} (hPhase : s.rfState = .awaitReq) {rtype lo hi : Byte}
    (hShort : (memRead s.file s.rfPos.toNat (joinLE16 lo hi).toNat).length < (joinLE16 lo hi).toNat) :
    exec (.rfPull [rtype, lo, hi]) s =
      .next { s with
        rfPos := s.rfPos + BitVec.ofNat 32 (memRead s.file s.rfPos.toNat (joinLE16 lo hi).toNat).length
        rfState := .done, rxlog := s.rxlog ++ [rtype, lo, hi]
        txlog := s.txlog ++ record s.rfTag rtData (memRead s.file s.rfPos.toNat (joinLE16 lo hi).toNat) ++
          record s.rfTag rtData [] } := by
  rw [exec_rfPull_of_three hPhase]
  obtain ⟨hFull, -⟩ | ⟨-, e⟩ := servePull_cases (joinLE16 lo hi) { s with rxlog := s.rxlog ++ [rtype, lo, hi] }
  · exact absurd hShort hFull.not_gt
  · rw [e]

/-- RF.POS advances without wrapping (R25): the bytes read end inside FILE, whose length fits in 32 bits (R29). -/
theorem toNat_add_memRead_length {file : Bytes} {pos : Word32} (hPos : pos.toNat ≤ file.length)
    (hFile : file.length ≤ 4294967295) (n : Nat) :
    (pos + BitVec.ofNat 32 (memRead file pos.toNat n).length).toNat =
      pos.toNat + (memRead file pos.toNat n).length := by
  have hEnd : pos.toNat + (memRead file pos.toNat n).length ≤ file.length := by
    rw [memRead_length]
    omega
  rw [BitVec.toNat_add, BitVec.toNat_ofNat]
  omega

/-- Settles O30: the read is full or short, and each case is one equation; the record's length bytes and the new
position are exact. -/
theorem pullSendsTheNextFileBytes : Obligations.PullSendsTheNextFileBytes := by
  unfold Obligations.PullSendsTheNextFileBytes
  intro rtype lo hi s hPhase hPos hFile req data lenLo lenHi hReq hData hLength
  obtain rfl : req = (joinLE16 lo hi).toNat := hReq.trans (joinLE16_toNat lo hi).symm
  obtain rfl : data = memRead s.file s.rfPos.toNat (joinLE16 lo hi).toNat := hData
  have hSent : s.txlog ++ record s.rfTag rtData (memRead s.file s.rfPos.toNat (joinLE16 lo hi).toNat) =
      s.txlog ++ [s.rfTag, 0x00, lenLo, lenHi] ++ memRead s.file s.rfPos.toNat (joinLE16 lo hi).toNat := by
    rw [record_of_length hLength, List.append_assoc]
    rfl
  refine ⟨_, toNat_add_memRead_length hPos hFile _, fun hFull => ?_, fun hShort => ?_, ?_⟩
  · rw [exec_rfPull_of_le hPhase hFull.ge, hSent]
  · rw [exec_rfPull_of_lt hPhase hShort, hSent, record_nil]
    rfl
  · rw [memRead_length]
    exact Nat.min_le_left _ _

/-- Settles O31: the short read of RF.PULL. -/
theorem shortReadFailsTheSession : Obligations.ShortReadFailsTheSession := by
  unfold Obligations.ShortReadFailsTheSession
  intro rx s hPhase hShort
  exact exec_rfPull_of_length_lt hPhase hShort

/-- Settles O32: RF.ABORT is a fault outside AWAIT_REQ and the entry to FAILED inside. -/
theorem abortFailsTheSession : Obligations.AbortFailsTheSession := by
  unfold Obligations.AbortFailsTheSession
  intro s
  obtain ⟨hOther, e⟩ | ⟨hPhase, e⟩ := execRfAbort_cases s
  · exact ⟨fun h => absurd h hOther, fun _ t ht => nomatch e.symm.trans ht⟩
  · exact ⟨fun _ => e, fun h => absurd hPhase h⟩

/-! The two marshallers -/

theorem exec_recEncode (tag rtype : Byte) (payload : Bytes) (s : State) :
    exec (.recEncode tag rtype payload) s = execRecEncode tag rtype payload s := rfl

/-- Settles O25: the four outcomes of REC.ENCODE; the length of an accepted payload is the join of its two bytes. -/
theorem recordEncodingChecksThenFrames : Obligations.RecordEncodingChecksThenFrames := by
  unfold Obligations.RecordEncodingChecksThenFrames
  intro tag rtype payload s
  simp only [exec_recEncode, ← tagOk_iff, ← recordTypeOk_iff, Bool.not_eq_true]
  obtain ⟨hTag, e⟩ | ⟨hTag, hType, e⟩ | ⟨hTag, hType, hLong, e⟩ | ⟨hTag, hType, hFits, e⟩ :=
    execRecEncode_cases tag rtype payload s
  · simpa [hTag] using e
  · simpa [hTag, hType] using e
  · simpa [hTag, hType, hLong, hLong.not_ge] using e
  · have hFrame : ∀ lo hi : Byte, payload.length = lo.toNat + 256 * hi.toNat →
        execRecEncode tag rtype payload s = .next { s with outlog := s.outlog ++ [[tag, rtype, lo, hi] ++ payload] } :=
      fun lo hi hLength => record_of_length hLength tag rtype ▸ e
    simpa [hTag, hType, hFits, hFits.not_gt] using hFrame

/-- Settles O26: the three outcomes of REQ.DECODE; the length field is the join of its two bytes. -/
theorem pullRequestDecodingNeedsThreeBytes : Obligations.PullRequestDecodingNeedsThreeBytes := by
  unfold Obligations.PullRequestDecodingNeedsThreeBytes
  intro rx s
  obtain ⟨hLong, e⟩ | ⟨hShort, e⟩ | ⟨rtype, lo, hi, rfl, e⟩ := execReqDecode_cases rx s
  · exact ⟨fun _ => e, fun hShort => by omega, fun _ _ _ _ hRx => absurd hLong (by simp [hRx])⟩
  · exact ⟨fun hLong => by omega, fun _ => e, fun _ _ _ _ hRx => absurd hShort (by simp [hRx])⟩
  · refine ⟨fun hLong => absurd hLong (Nat.lt_irrefl 3), fun hShort => absurd hShort (Nat.lt_irrefl 3), ?_⟩
    rintro _ _ _ length ⟨⟩ hValue
    obtain rfl := eq_joinLE16_of_toNat hValue
    exact e

/-! The three starts -/

theorem exec_rfStartBridge (s : State) : exec .rfStartBridge s = .next (startSession tagBridge [] s) := rfl

theorem exec_rfStartNcp (fileSize : Word32) (digest : Bytes) (s : State) :
    exec (.rfStartNcp fileSize digest) s = .next (startSession tagNcp (ncpMetadata fileSize digest) s) := rfl

theorem exec_rfStartNode (fileSize : Word32) (nodeId : Word16) (digest : Bytes) (s : State) :
    exec (.rfStartNode fileSize nodeId digest) s =
      .next (startSession tagNode (nodeMetadata fileSize nodeId digest) s) := rfl

/-- The three ways of a start (R123), for an operation that is `startSession` and the bytes of its header record. -/
theorem exec_eq_of_startSession {i : Instr} {tag : Byte} {metadata header : Bytes} {s : State}
    (hExec : exec i s = .next (startSession tag metadata s)) (hHeader : record tag rtHeader metadata = header) :
    (s.rfState ≠ .idle → exec i s = .next { s with reslog := s.reslog ++ [.refused .sessionNotIdle] }) ∧
    (s.rfState = .idle → s.fileOpen = false →
      exec i s = .next { s with rfCause := .fileOpenFailed, reslog := s.reslog ++ [.err .fileOpenFailed 0] }) ∧
    (s.rfState = .idle → s.fileOpen = true →
      exec i s =
        .next { s with
          rfState := .awaitReq, rfTag := tag, rfPos := 0, rfCause := .none
          txlog := s.txlog ++ header, reslog := s.reslog ++ [.ok] }) := by
  subst hHeader
  rw [hExec]
  obtain ⟨hPhase, e⟩ | ⟨hPhase, hFile, e⟩ | ⟨hPhase, hFile, e⟩ := startSession_cases tag metadata s
  · rw [e]
    exact ⟨fun _ => rfl, fun h => absurd h hPhase, fun h => absurd h hPhase⟩
  · rw [e]
    exact ⟨fun h => absurd hPhase h, fun _ _ => rfl, fun _ h => absurd (hFile.symm.trans h) Bool.false_ne_true⟩
  · rw [e]
    exact ⟨fun h => absurd hPhase h, fun _ h => absurd (h.symm.trans hFile) Bool.false_ne_true, fun _ _ => rfl⟩

/-- The ncp header record of a size given by its bytes and a digest of 16 bytes (R71, R125). -/
theorem ncpHeader_joinBE32 {digest : Bytes} (hDigest : digest.length = 16) (b3 b2 b1 b0 : Byte) :
    record tagNcp rtHeader (ncpMetadata (joinBE32 b3 b2 b1 b0) digest) =
      [0x30, 0x01, 0x14, 0x00, b0, b1, b2, b3] ++ digest := by
  have hMetadata : ncpMetadata (joinBE32 b3 b2 b1 b0) digest = [b0, b1, b2, b3] ++ digest := by
    rw [ncpMetadata, le32_joinBE32]
  have hLength : ([b0, b1, b2, b3] ++ digest).length = (0x14 : Byte).toNat + 256 * (0x00 : Byte).toNat := by
    rw [List.length_append, hDigest]
    rfl
  rw [hMetadata, record_of_length hLength]
  rfl

/-- The node header record of a size and a node id given by their bytes and a digest of 16 bytes (R71, R126). -/
theorem nodeHeader_joinBE32_joinBE16 {digest : Bytes} (hDigest : digest.length = 16) (b3 b2 b1 b0 n1 n0 : Byte) :
    record tagNode rtHeader (nodeMetadata (joinBE32 b3 b2 b1 b0) (joinBE16 n1 n0) digest) =
      [0x40, 0x01, 0x16, 0x00, b0, b1, b2, b3, n1, n0] ++ digest := by
  have hMetadata : nodeMetadata (joinBE32 b3 b2 b1 b0) (joinBE16 n1 n0) digest =
      [b0, b1, b2, b3, n1, n0] ++ digest := by
    rw [nodeMetadata, le32_joinBE32, be16_joinBE16]
    rfl
  have hLength : ([b0, b1, b2, b3, n1, n0] ++ digest).length = (0x16 : Byte).toNat + 256 * (0x00 : Byte).toNat := by
    rw [List.length_append, hDigest]
    rfl
  rw [hMetadata, record_of_length hLength]
  rfl

/-- Settles O27: the three ways of a start, with the header of no metadata. -/
theorem bridgeStartSendsAnEmptyHeader : Obligations.BridgeStartSendsAnEmptyHeader := by
  unfold Obligations.BridgeStartSendsAnEmptyHeader
  intro s
  exact exec_eq_of_startSession (exec_rfStartBridge s) (record_nil tagBridge rtHeader)

/-- Settles O28: the three ways of a start, with the header of the size and the digest. -/
theorem ncpStartSendsSizeAndDigest : Obligations.NcpStartSendsSizeAndDigest := by
  unfold Obligations.NcpStartSendsSizeAndDigest
  intro b3 b2 b1 b0 fileSize digest s hDigest hSize
  obtain rfl := eq_joinBE32_of_toNat hSize
  rw [List.append_assoc s.txlog]
  exact exec_eq_of_startSession (exec_rfStartNcp _ digest s) (ncpHeader_joinBE32 hDigest b3 b2 b1 b0)

/-- Settles O29: the three ways of a start, with the header of the size, the node id and the digest. -/
theorem nodeStartSendsSizeNodeAndDigest : Obligations.NodeStartSendsSizeNodeAndDigest := by
  unfold Obligations.NodeStartSendsSizeNodeAndDigest
  intro b3 b2 b1 b0 n1 n0 fileSize nodeId digest s hDigest hSize hNode
  obtain rfl := eq_joinBE32_of_toNat hSize
  obtain rfl := eq_joinBE16_of_toNat hNode
  rw [List.append_assoc s.txlog]
  exact exec_eq_of_startSession (exec_rfStartNode _ _ digest s)
    (nodeHeader_joinBE32_joinBE16 hDigest b3 b2 b1 b0 n1 n0)

end Sys2Proof.Machine
end

section
/-! PROOFS. Exceptions: the two ends of a session, which only SYS.RESET leaves (`60_exceptions.md` R170). -/

namespace Sys2Proof.Machine

/-- A side command or a start is no SYS.RESET and no relay event. -/
theorem ne_event_of_isSideCommand_or_isStart {i : Instr} (hi : isSideCommand i = true ∨ isStart i = true) :
    i ≠ .sysReset ∧ (∀ rx, i ≠ .rfPull rx) ∧ i ≠ .rfAbort := by
  refine ⟨?_, fun rx => ?_, ?_⟩ <;> rintro rfl <;> exact hi.elim nofun nofun

/-- A side effect changes no register of the relay framer and sends nothing. -/
theorem SideEffect.relay_unchanged {i : Instr} {s t : State} (h : SideEffect i s t) :
    t.rfState = s.rfState ∧ t.rfCause = s.rfCause ∧ t.rfTag = s.rfTag ∧ t.rfPos = s.rfPos ∧ t.txlog = s.txlog := by
  obtain ⟨c, frames, answers, rfl, -⟩ := h
  exact ⟨rfl, rfl, rfl, rfl, rfl⟩

/-- Outside IDLE a start is refused (R123), which is an answer only. -/
theorem SideEffect.startSession_of_ne_idle {s : State} (hPhase : s.rfState ≠ .idle) (i : Instr) (tag : Byte)
    (metadata : Bytes) : SideEffect i s (startSession tag metadata s) := by
  obtain ⟨-, e⟩ | ⟨hIdle, -⟩ | ⟨hIdle, -⟩ := startSession_cases tag metadata s
  · exact e ▸ SideEffect.refuse i s .sessionNotIdle
  · exact absurd hIdle hPhase
  · exact absurd hIdle hPhase

/-- Everything an answered operation can have done after the end of a session (R170): a reset, or a side effect. -/
theorem exec_cases_of_ended {i : Instr} {s t : State} (hEnded : s.rfState = .done ∨ s.rfState = .failed)
    (h : exec i s = .next t) :
    (i = .sysReset ∧ execSysReset s = .next t) ∨
      ((isSideCommand i = true ∨ isStart i = true) ∧ SideEffect i s t) := by
  have hIdle : s.rfState ≠ .idle := fun e => by simp [e] at hEnded
  have hWaiting : s.rfState ≠ .awaitReq := fun e => by simp [e] at hEnded
  obtain ⟨rfl, -⟩ | ⟨hi, he⟩ | ⟨hi, tag, metadata, -, rfl⟩ | ⟨_, -, hPhase, -⟩ | ⟨_, -, hPhase, -⟩ | ⟨-, hPhase, -⟩ :=
    exec_cases h
  · exact .inl ⟨rfl, h⟩
  · exact .inr ⟨.inl hi, he⟩
  · exact .inr ⟨.inr hi, .startSession_of_ne_idle hIdle i tag metadata⟩
  · exact absurd hPhase hWaiting
  · exact absurd hPhase hWaiting
  · exact absurd hPhase hWaiting

/-- Settles O37: a reset writes the reset values, and every other answered operation has a side effect only. -/
theorem endedSessionIsLeftOnlyByReset : Obligations.EndedSessionIsLeftOnlyByReset := by
  unfold Obligations.EndedSessionIsLeftOnlyByReset
  intro i s t hEnded h
  obtain ⟨rfl, e⟩ | ⟨hi, he⟩ := exec_cases_of_ended hEnded h
  · cases (execSysReset_eq s).symm.trans e
    exact ⟨fun hne => absurd rfl hne, nofun, nofun, fun _ => ⟨rfl, rfl, rfl, rfl, rfl⟩⟩
  · obtain ⟨hReset, hPull, hAbort⟩ := ne_event_of_isSideCommand_or_isStart hi
    exact ⟨fun _ => he.relay_unchanged, hPull, hAbort, fun e => absurd e hReset⟩

end Sys2Proof.Machine
end

section
/-! PROOFS. ResetAndHazards: what SYS.RESET leaves, and which commands a waiting session is not disturbed by
(`70_reset_and_hazards.md` R180, R185). -/

namespace Sys2Proof.Machine

theorem exec_sysReset (s : State) :
    exec .sysReset s =
      .next { s with
        crc := 0x1D0F, rfState := .idle, rfTag := 0x00, rfPos := 0, rfCause := .none
        outlog := [], txlog := [], reslog := [.ok], rxlog := [] } := execSysReset_eq s

/-- A side effect reads nothing from RX. -/
theorem SideEffect.rxlog_unchanged {i : Instr} {s t : State} (h : SideEffect i s t) : t.rxlog = s.rxlog := by
  obtain ⟨c, frames, answers, rfl, -⟩ := h
  rfl

/-- Outside IDLE every start is refused, whatever its operands and FILE (R123, R165). -/
theorem exec_start_of_ne_idle {i : Instr} {s : State} (hi : isStart i = true) (hPhase : s.rfState ≠ .idle) :
    exec i s = .next { s with reslog := s.reslog ++ [.refused .sessionNotIdle] } := by
  obtain ⟨tag, metadata, -, hStart⟩ := exec_start hi s
  rw [hStart]
  obtain ⟨-, e⟩ | ⟨hIdle, -⟩ | ⟨hIdle, -⟩ := startSession_cases tag metadata s
  · exact congrArg _ e
  · exact absurd hIdle hPhase
  · exact absurd hIdle hPhase

/-- Settles O41: a side command has a side effect only, a start is refused outside IDLE, and a reset leaves IDLE. -/
theorem sideCommandsDoNotDisturbASession : Obligations.SideCommandsDoNotDisturbASession := by
  unfold Obligations.SideCommandsDoNotDisturbASession
  intro i s hWaiting
  refine ⟨fun hi => ?side, fun hi => ?start, ?reset⟩
  case side =>
    obtain ⟨t, ht, he⟩ := exec_side hi s
    obtain ⟨hState, hCause, hTag, hPos, hTx⟩ := he.relay_unchanged
    exact ⟨t, ht, hState.trans hWaiting, hTag, hPos, hCause, hTx, he.rxlog_unchanged⟩
  case start =>
    exact exec_start_of_ne_idle hi (by simp [hWaiting])
  case reset =>
    rintro rfl
    exact ⟨_, exec_sysReset s, rfl⟩

/-- Settles O2: SYS.RESET answers the same state in whatever state it is issued, but for the environment's fields. -/
theorem sysResetRestoresEveryRegister : Obligations.SysResetRestoresEveryRegister := by
  unfold Obligations.SysResetRestoresEveryRegister
  intro s
  refine ⟨_, exec_sysReset s, rfl, rfl, rfl, rfl, rfl, rfl, rfl, rfl, ?powerOn⟩
  exact ⟨State.reset_crc, State.reset_rfState, State.reset_rfTag, State.reset_rfPos, State.reset_rfCause⟩

end Sys2Proof.Machine
end

section
/-! PROOFS. Decode: the decoder and the encoder of command packets are inverse to each other (`30_encoding.md` R61, R78;
log 1). -/

namespace Sys2Proof

open Machine

/-- The operands of a well-formed operation decode by the row of its own OP. -/
theorem decodeOperands_encodeOperands {i : Instr} (wf : i.wf = true) :
    decodeOperands i.op (encodeOperands i) = .ok i := by
  cases i
  case fwUpdget vendor fw ck =>
    simp [Instr.op, encodeOperands, decodeOperands, be16, decodeFwUpdget]
  case fwActset vendor fw ck target hw =>
    simp [Instr.op, encodeOperands, decodeOperands, be16, decodeFwActset]
  case fwReport n last chunk =>
    simp [Instr.op, encodeOperands, decodeOperands, be16, decodeFwReport]
  case rfStartNcp fileSize digest =>
    have hDigest : digestOk digest = true := wf
    simp [Instr.op, encodeOperands, decodeOperands, be32, decodeRfStartNcp, hDigest]
  case rfStartNode fileSize nodeId digest =>
    have hDigest : digestOk digest = true := wf
    simp [Instr.op, encodeOperands, decodeOperands, be32, be16, decodeRfStartNode, hDigest]
  case rfPull rx =>
    exact if_pos wf
  all_goals rfl

/-- Settles O55: the OP byte finds the operation's row, which reads its operands back. -/
theorem decodeInvertsEncode : Obligations.DecodeInvertsEncode := by
  unfold Obligations.DecodeInvertsEncode
  intro i wf
  rw [encode, decode_code, decodeOperands_encodeOperands wf]

/-- `args` are the operand bytes of `i`, a well-formed operation of the row `o`. -/
def IsPacketOf (o : Op) (args : Bytes) (i : Instr) : Prop :=
  i.op = o ∧ encodeOperands i = args ∧ i.wf = true

/-- The packet of a row's code and an operation's operands is the operation's packet. -/
theorem IsPacketOf.encode_eq {o : Op} {args : Bytes} {i : Instr} (h : IsPacketOf o args i) :
    encode i = o.code :: args := by
  obtain ⟨hOp, hArgs, -⟩ := h
  rw [encode, hOp, hArgs]

theorem isPacketOf_of_decodeNone {o : Op} {args : Bytes} {i j : Instr} (hi : IsPacketOf o [] i)
    (h : decodeNone o i args = .ok j) : IsPacketOf o args j := by
  cases args <;> cases h
  exact hi

theorem isPacketOf_of_decodeCrcByte {args : Bytes} {i : Instr} (h : decodeCrcByte args = .ok i) :
    IsPacketOf .crcByte args i := by
  unfold decodeCrcByte at h
  split at h <;> cases h
  exact ⟨rfl, rfl, rfl⟩

theorem isPacketOf_of_decodeEnvEncode {args : Bytes} {i : Instr} (h : decodeEnvEncode args = .ok i) :
    IsPacketOf .envEncode args i := by
  unfold decodeEnvEncode at h
  split at h <;> cases h
  exact ⟨rfl, rfl, rfl⟩

theorem isPacketOf_of_decodeFwReqget {args : Bytes} {i : Instr} (h : decodeFwReqget args = .ok i) :
    IsPacketOf .fwReqget args i := by
  unfold decodeFwReqget at h
  split at h <;> cases h
  exact ⟨rfl, rfl, rfl⟩

theorem isPacketOf_of_decodeFwUpdget {args : Bytes} {i : Instr} (h : decodeFwUpdget args = .ok i) :
    IsPacketOf .fwUpdget args i := by
  unfold decodeFwUpdget at h
  split at h <;> cases h
  exact ⟨rfl, by simp [encodeOperands, be16_joinBE16], rfl⟩

theorem isPacketOf_of_decodeFwReport {args : Bytes} {i : Instr} (h : decodeFwReport args = .ok i) :
    IsPacketOf .fwReport args i := by
  unfold decodeFwReport at h
  split at h
  · split at h <;> cases h
    rename_i n last hNumber hBool
    exact ⟨rfl, by simp [encodeOperands, be16_of_decodeWord15 hNumber, boolByte_of_decodeBool hBool], rfl⟩
  · cases h

theorem isPacketOf_of_decodeFwActset {args : Bytes} {i : Instr} (h : decodeFwActset args = .ok i) :
    IsPacketOf .fwActset args i := by
  unfold decodeFwActset at h
  split at h <;> cases h
  exact ⟨rfl, by simp [encodeOperands, be16_joinBE16], rfl⟩

theorem isPacketOf_of_decodeRecEncode {args : Bytes} {i : Instr} (h : decodeRecEncode args = .ok i) :
    IsPacketOf .recEncode args i := by
  unfold decodeRecEncode at h
  split at h <;> cases h
  exact ⟨rfl, rfl, rfl⟩

theorem isPacketOf_of_decodeRfStartNcp {args : Bytes} {i : Instr} (h : decodeRfStartNcp args = .ok i) :
    IsPacketOf .rfStartNcp args i := by
  unfold decodeRfStartNcp at h
  split at h
  · split at h <;> cases h
    exact ⟨rfl, by simp [encodeOperands, be32_joinBE32], ‹_›⟩
  · cases h

theorem isPacketOf_of_decodeRfStartNode {args : Bytes} {i : Instr} (h : decodeRfStartNode args = .ok i) :
    IsPacketOf .rfStartNode args i := by
  unfold decodeRfStartNode at h
  split at h
  · split at h <;> cases h
    exact ⟨rfl, by simp [encodeOperands, be32_joinBE32, be16_joinBE16], ‹_›⟩
  · cases h

theorem isPacketOf_of_decodeRfPull {args : Bytes} {i : Instr} (h : decodeRfPull args = .ok i) :
    IsPacketOf .rfPull args i := by
  unfold decodeRfPull at h
  split at h <;> cases h
  exact ⟨rfl, rfl, ‹_›⟩

/-- What a row reads is an operation of that row, well formed, and its operand bytes are all the bytes given. -/
theorem isPacketOf_of_decodeOperands {o : Op} {args : Bytes} {i : Instr} (h : decodeOperands o args = .ok i) :
    IsPacketOf o args i := by
  cases o
  case sysReset => exact isPacketOf_of_decodeNone ⟨rfl, rfl, rfl⟩ h
  case crcInit => exact isPacketOf_of_decodeNone ⟨rfl, rfl, rfl⟩ h
  case crcByte => exact isPacketOf_of_decodeCrcByte h
  case crcRead => exact isPacketOf_of_decodeNone ⟨rfl, rfl, rfl⟩ h
  case crcCompute =>
    cases h
    exact ⟨rfl, rfl, rfl⟩
  case envEncode => exact isPacketOf_of_decodeEnvEncode h
  case fwMdget => exact isPacketOf_of_decodeNone ⟨rfl, rfl, rfl⟩ h
  case fwReqget => exact isPacketOf_of_decodeFwReqget h
  case fwUpdget => exact isPacketOf_of_decodeFwUpdget h
  case fwReport => exact isPacketOf_of_decodeFwReport h
  case fwActset => exact isPacketOf_of_decodeFwActset h
  case fwDecreq =>
    cases h
    exact ⟨rfl, rfl, rfl⟩
  case recEncode => exact isPacketOf_of_decodeRecEncode h
  case reqDecode =>
    cases h
    exact ⟨rfl, rfl, rfl⟩
  case rfStartBridge => exact isPacketOf_of_decodeNone ⟨rfl, rfl, rfl⟩ h
  case rfStartNcp => exact isPacketOf_of_decodeRfStartNcp h
  case rfStartNode => exact isPacketOf_of_decodeRfStartNode h
  case rfPull => exact isPacketOf_of_decodeRfPull h
  case rfAbort => exact isPacketOf_of_decodeNone ⟨rfl, rfl, rfl⟩ h

/-- A packet that decodes is the code of a row and the operand bytes of an operation of that row. -/
theorem exists_isPacketOf_of_decode {packet : Bytes} {i : Instr} (h : decode packet = .ok i) :
    ∃ o args, packet = o.code :: args ∧ IsPacketOf o args i := by
  cases packet with
  | nil => cases h
  | cons b args =>
    cases hRow : Op.ofByte b with
    | none =>
      simp only [decode, hRow] at h
      cases h
    | some o =>
      simp only [decode, hRow] at h
      exact ⟨o, args, by rw [Op.code_of_ofByte hRow], isPacketOf_of_decodeOperands h⟩

/-- What a packet decodes to has the operand types of R61. -/
theorem wf_of_decode {packet : Bytes} {i : Instr} (h : decode packet = .ok i) : i.wf = true := by
  obtain ⟨_, _, -, -, -, wf⟩ := exists_isPacketOf_of_decode h
  exact wf

/-- Settles O56: the OP byte is the code of the row it finds, and each row's decoder gives its operand bytes back. -/
theorem encodeInvertsDecode : Obligations.EncodeInvertsDecode := by
  unfold Obligations.EncodeInvertsDecode
  intro packet i h
  obtain ⟨o, args, rfl, hPacket⟩ := exists_isPacketOf_of_decode h
  exact ⟨hPacket.encode_eq, wf_of_decode h⟩

/-- A byte that is the code of no row finds none (R61, R78). -/
theorem Op.ofByte_eq_none {b : Byte} (h : b ∉ Op.all.map Op.code) : Op.ofByte b = none := by
  refine List.find?_eq_none.2 fun o ho hCode => h ?_
  rw [← eq_of_beq hCode]
  exact List.mem_map_of_mem ho

theorem decode_of_unassigned {b : Byte} (h : b ∉ Op.all.map Op.code) (args : Bytes) :
    decode (b :: args) = .error (.unknownOp b) := by
  simp only [decode, Op.ofByte_eq_none h]

/-- Settles O57: each sample is the packet of its operation. -/
theorem samplePacketsDecode : Obligations.SamplePacketsDecode := by
  unfold Obligations.SamplePacketsDecode
  exact ⟨decodeInvertsEncode .sysReset rfl, decodeInvertsEncode (.crcByte 0x31) rfl,
    decodeInvertsEncode (.crcCompute []) rfl, decodeInvertsEncode (.envEncode [0x7A, 0x01] 0xFF 0xA5 0x5A) rfl,
    decodeInvertsEncode (.fwReport 0x7FFF true [0xAA]) rfl, decodeInvertsEncode (.fwUpdget 0xABCD 0x0102 0xE5CC) rfl,
    decodeInvertsEncode (.rfPull [0x00, 0x40, 0x00]) rfl, decodeInvertsEncode .rfAbort rfl⟩

/-- Settles O46: by the definition of a step, with the input that is next. -/
theorem stepExecutesThePresentedPacket : Obligations.StepExecutesThePresentedPacket := by
  unfold Obligations.StepExecutesThePresentedPacket
  intro s packet rest i hInput hDecode
  rw [step, hInput]
  simp only [hDecode]
  rfl

end Sys2Proof
end

section
/-! PROOFS. Invariant: the invariant of the relay framer holds at reset and is kept by every step, and the step
into DONE has handed over the whole file (`42_relay_framer.md` R127, `70_reset_and_hazards.md` R191). -/

namespace Sys2Proof.Machine

/-! What the invariant says in each phase -/

theorem phaseInv_idle {s : State} (h : s.rfState = .idle) :
    PhaseInv s ↔ s.rfTag = 0x00 ∧ s.rfPos = 0 ∧ (s.rfCause = .none ∨ s.rfCause = .fileOpenFailed) ∧
      s.txlog = [] ∧ s.rxlog = [] := by
  rw [PhaseInv, h]

theorem phaseInv_awaitReq {s : State} (h : s.rfState = .awaitReq) :
    PhaseInv s ↔ s.rfCause = .none ∧ s.fileOpen = true ∧ s.rfPos.toNat ≤ s.file.length ∧
      s.rxlog.length % pullReqLen = 0 ∧ Relayed s (s.file.take s.rfPos.toNat) [] := by
  rw [PhaseInv, h]

theorem phaseInv_done {s : State} (h : s.rfState = .done) :
    PhaseInv s ↔ s.rfCause = .none ∧
      ∃ sent, sent.length = s.rfPos.toNat ∧ Relayed s sent (record s.rfTag rtData []) := by
  rw [PhaseInv, h]

theorem phaseInv_failed {s : State} (h : s.rfState = .failed) :
    PhaseInv s ↔ (s.rfCause = .relayShortRead ∨ s.rfCause = .connClosed) ∧
      ∃ sent, sent.length = s.rfPos.toNat ∧ Relayed s sent [] := by
  rw [PhaseInv, h]

/-! What keeps it, case by case -/

/-- The invariant speaks of the relay framer, TX, RX and FILE only. -/
theorem Inv.of_rest {s : State} (h : Inv s) (crc : CrcWord) (outlog : List Bytes) (reslog : List Res)
    (inputs : List Input) : Inv { s with crc := crc, outlog := outlog, reslog := reslog, inputs := inputs } := h

/-- Outside a session the invariant says nothing of FILE but its greatest length (R29, R45). -/
theorem Inv.of_file {s : State} (h : Inv s) (hPhase : s.rfState ≠ .awaitReq) {contents : Bytes}
    (hLength : contents.length ≤ fileLenMax) (opened : Bool) :
    Inv { s with fileOpen := opened, file := contents } := by
  refine ⟨hLength, ?_⟩
  have hp := h.2
  cases hs : s.rfState with
  | awaitReq => exact absurd hs hPhase
  | idle => exact (phaseInv_idle rfl).2 ((phaseInv_idle hs).1 hp)
  | done => exact (phaseInv_done rfl).2 ((phaseInv_done hs).1 hp)
  | failed => exact (phaseInv_failed rfl).2 ((phaseInv_failed hs).1 hp)

/-- A state with the reset values and empty histories meets the invariant, whatever FILE is. -/
theorem inv_of_reset_values {s : State} (hFile : s.file.length ≤ fileLenMax) (hPhase : s.rfState = .idle)
    (hTag : s.rfTag = 0) (hPos : s.rfPos = 0) (hCause : s.rfCause = .none) (hTx : s.txlog = []) (hRx : s.rxlog = []) :
    Inv s :=
  ⟨hFile, (phaseInv_idle hPhase).2 ⟨hTag, hPos, .inl hCause, hTx, hRx⟩⟩

/-- A side effect keeps the invariant. -/
theorem Inv.of_sideEffect {i : Instr} {s t : State} (h : Inv s) (he : SideEffect i s t) : Inv t := by
  obtain ⟨c, frames, answers, rfl, -⟩ := he
  exact h.of_rest c _ _ s.inputs

/-- A start with legal metadata keeps the invariant: from IDLE, where nothing has been sent, it sends the header
(R123). -/
theorem Inv.of_startSession {s : State} (h : Inv s) {tag : Byte} {metadata : Bytes}
    (legal : LegalMetadata tag metadata) : Inv (startSession tag metadata s) := by
  obtain ⟨hFile, hp⟩ := h
  obtain ⟨-, e⟩ | ⟨hIdle, -, e⟩ | ⟨hIdle, hOpen, e⟩ := startSession_cases tag metadata s
  · rw [e]
    exact ⟨hFile, hp⟩
  · obtain ⟨hTag, hPos, -, hTx, hRx⟩ := (phaseInv_idle hIdle).1 hp
    rw [e]
    exact ⟨hFile, (phaseInv_idle (by exact hIdle)).2 ⟨hTag, hPos, .inr rfl, hTx, hRx⟩⟩
  · obtain ⟨-, -, -, hTx, hRx⟩ := (phaseInv_idle hIdle).1 hp
    rw [e]
    refine ⟨hFile, (phaseInv_awaitReq rfl).2 ⟨rfl, hOpen, Nat.zero_le _, by simp [hRx], ?_⟩⟩
    exact ⟨metadata, [], legal, by simp, by simp [sessionStream, hTx], rfl, by simp [hRx]⟩

/-- Entering FAILED keeps what was relayed, after a read of fewer bytes than a request has, or none (R130, R131). -/
theorem Inv.of_failed {s : State} (h : Inv s) (hPhase : s.rfState = .awaitReq) {rx : Bytes} (hShort : rx.length < 3)
    {cause : Cause} (hCause : cause = .relayShortRead ∨ cause = .connClosed) :
    Inv { s with rxlog := s.rxlog ++ rx, rfCause := cause, rfState := .failed } := by
  obtain ⟨hFile, hp⟩ := h
  obtain ⟨-, -, hPos, hWhole, metadata, chunks, legal, hChunks, hTx, hSent, hCount⟩ := (phaseInv_awaitReq hPhase).1 hp
  have hCount' : chunks.length = (s.rxlog ++ rx).length / pullReqLen := by
    rw [hCount, List.length_append]
    simp only [pullReqLen] at *
    omega
  refine ⟨hFile, (phaseInv_failed rfl).2 ⟨hCause, s.file.take s.rfPos.toNat, ?_, ?_⟩⟩
  · rw [List.length_take]
    exact Nat.min_eq_left hPos
  · exact ⟨metadata, chunks, legal, hChunks, hTx, hSent, hCount'⟩

/-- One more data record, for one more request, appends its payload to what was relayed (R127 (b), (c)). -/
theorem Relayed.append_record {s t : State} {sent data rx ending : Bytes} (h : Relayed s sent [])
    (hTag : t.rfTag = s.rfTag) (hTx : t.txlog = s.txlog ++ record s.rfTag rtData data ++ ending)
    (hRx : t.rxlog = s.rxlog ++ rx) (hRequest : rx.length = 3) (hData : data.length ≤ recLenMax) :
    Relayed t (sent ++ data) ending := by
  obtain ⟨metadata, chunks, legal, hChunks, hStream, hSent, hCount⟩ := h
  refine ⟨metadata, chunks ++ [data], hTag ▸ legal, ?_, ?_, ?_, ?_⟩
  · simpa [or_imp, forall_and] using ⟨hChunks, hData⟩
  · simp [hTx, hStream, hTag, sessionStream]
  · simp [hSent]
  · simp only [hRx, List.length_append, hCount, hRequest, List.length_singleton, pullReqLen]
    omega

/-- The payload of a data record fits its length field (R69): a request asks for at most 65535 bytes. -/
theorem memRead_length_le_recLenMax (file : Bytes) (addr : Nat) (req : Word16) :
    (memRead file addr req.toNat).length ≤ recLenMax := by
  have := req.isLt
  rw [memRead_length, recLenMax]
  omega

/-- The service of a whole request leaves RF.POS after the bytes read, and the part of FILE before it relayed (R128). -/
theorem relayed_of_served {s t : State} (h : Inv s) (hPhase : s.rfState = .awaitReq) {rx ending : Bytes}
    (hRequest : rx.length = 3) {req : Word16} {data : Bytes} (hData : data = memRead s.file s.rfPos.toNat req.toNat)
    (hPos : t.rfPos = s.rfPos + BitVec.ofNat 32 data.length) (hTag : t.rfTag = s.rfTag)
    (hTx : t.txlog = s.txlog ++ record s.rfTag rtData data ++ ending) (hRx : t.rxlog = s.rxlog ++ rx) :
    t.rfPos.toNat = s.rfPos.toNat + data.length ∧ Relayed t (s.file.take t.rfPos.toNat) ending := by
  obtain ⟨hFile, hp⟩ := h
  obtain ⟨-, -, hInside, -, hRelayed⟩ := (phaseInv_awaitReq hPhase).1 hp
  have hEnd : t.rfPos.toNat = s.rfPos.toNat + data.length := by
    rw [hPos, hData, toNat_add_memRead_length hInside hFile]
  refine ⟨hEnd, ?_⟩
  rw [hEnd, hData, ← take_append_memRead, ← hData]
  exact hRelayed.append_record hTag hTx hRx hRequest (hData ▸ memRead_length_le_recLenMax _ _ _)

/-- A service that fell short has read FILE to its end (R129). -/
theorem pos_add_length_of_short {file : Bytes} {pos n : Nat} (hInside : pos ≤ file.length)
    (hShort : (memRead file pos n).length < n) : pos + (memRead file pos n).length = file.length := by
  rw [memRead_length] at *
  omega

/-- A service that fell short has relayed the whole file, and the sentinel after it (R127 (d), (e), R129). -/
theorem servePull_short {s t : State} (h : Inv s) (hPhase : s.rfState = .awaitReq) {rx : Bytes}
    (hRequest : rx.length = 3) {req : Word16}
    (hShort : (memRead s.file s.rfPos.toNat req.toNat).length < req.toNat)
    (ht : t = servePull req { s with rxlog := s.rxlog ++ rx }) :
    t.rfState = .done ∧ t.rfCause = s.rfCause ∧ t.file = s.file ∧ t.rfPos.toNat = s.file.length ∧
      Relayed t s.file (record t.rfTag rtData []) := by
  obtain ⟨-, -, hInside, -, -⟩ := (phaseInv_awaitReq hPhase).1 h.2
  obtain ⟨hFull, -⟩ | ⟨-, e⟩ := servePull_cases req { s with rxlog := s.rxlog ++ rx }
  · exact absurd hShort hFull.not_gt
  · have e := ht.trans e
    have hTag : t.rfTag = s.rfTag := by rw [e]
    obtain ⟨hPos, hRelayed⟩ := relayed_of_served (t := t) (ending := record t.rfTag rtData []) h hPhase hRequest rfl
      (by rw [e]) hTag (by rw [hTag, e]) (by rw [e])
    rw [pos_add_length_of_short hInside hShort] at hPos
    rw [hPos, List.take_length] at hRelayed
    exact ⟨by rw [e], by rw [e], by rw [e], hPos, hRelayed⟩

/-- A service in full goes on waiting, with as much of FILE relayed as RF.POS says (R128). -/
theorem Inv.of_servePull_full {s t : State} (h : Inv s) (hPhase : s.rfState = .awaitReq) {rx : Bytes}
    (hRequest : rx.length = 3) {req : Word16} (hFull : req.toNat ≤ (memRead s.file s.rfPos.toNat req.toNat).length)
    (ht : t = servePull req { s with rxlog := s.rxlog ++ rx }) : Inv t := by
  obtain ⟨hCause, hOpen, hInside, hWhole, -⟩ := (phaseInv_awaitReq hPhase).1 h.2
  obtain ⟨-, e⟩ | ⟨hShort, -⟩ := servePull_cases req { s with rxlog := s.rxlog ++ rx }
  · have e := ht.trans e
    have hFile : t.file = s.file := by rw [e]
    have hRx : t.rxlog = s.rxlog ++ rx := by rw [e]
    obtain ⟨hPos, hRelayed⟩ := relayed_of_served (t := t) (ending := []) h hPhase hRequest rfl (by rw [e]) (by rw [e])
      (by rw [e, List.append_nil]) hRx
    refine ⟨hFile ▸ h.1, (phaseInv_awaitReq (by rw [e, hPhase])).2 ⟨?_, ?_, ?_, ?_, ?_⟩⟩
    · rw [e, hCause]
    · rw [e, hOpen]
    · rw [hPos, hFile, memRead_length]
      omega
    · simp only [hRx, List.length_append, hRequest, pullReqLen] at *
      omega
    · rw [hFile]
      exact hRelayed
  · exact absurd hShort hFull.not_gt

/-- The service of a whole request keeps the invariant: the session goes on, or ends in DONE (R128, R129). -/
theorem Inv.of_servePull {s : State} (h : Inv s) (hPhase : s.rfState = .awaitReq) {rx : Bytes}
    (hRequest : rx.length = 3) (req : Word16) : Inv (servePull req { s with rxlog := s.rxlog ++ rx }) := by
  obtain hFull | hShort := le_or_gt req.toNat (memRead s.file s.rfPos.toNat req.toNat).length
  · exact h.of_servePull_full hPhase hRequest hFull rfl
  · obtain ⟨hCause, -⟩ := (phaseInv_awaitReq hPhase).1 h.2
    obtain ⟨hDone, hSame, hFile, hPos, hRelayed⟩ := servePull_short h hPhase hRequest hShort rfl
    exact ⟨hFile.symm ▸ h.1, (phaseInv_done hDone).2 ⟨hSame.trans hCause, s.file, hPos.symm, hRelayed⟩⟩

/-- A well-formed pull that is no short read has exactly 3 bytes (R46). -/
theorem length_eq_three_of_wf {rx : Bytes} (wf : (Instr.rfPull rx).wf = true) (hWhole : 3 ≤ rx.length) :
    rx.length = 3 := by
  have : rx.length ≤ 3 := of_decide_eq_true wf
  omega

/-- Every well-formed operation keeps the invariant. -/
theorem Inv.of_exec {i : Instr} {s t : State} (h : Inv s) (wf : i.wf = true) (hExec : exec i s = .next t) :
    Inv t := by
  obtain ⟨-, rfl⟩ | ⟨-, he⟩ | ⟨-, tag, metadata, hStart, rfl⟩ | ⟨rx, rfl, hPhase, hShort, rfl⟩ |
    ⟨rx, rfl, hPhase, hWhole, rfl⟩ | ⟨rfl, hPhase, rfl⟩ := exec_cases hExec
  · exact inv_of_reset_values h.1 rfl rfl rfl rfl rfl rfl
  · exact h.of_sideEffect he
  · exact h.of_startSession (hStart.legal wf)
  · exact h.of_failed hPhase hShort (.inl rfl)
  · exact h.of_servePull hPhase (length_eq_three_of_wf wf hWhole) _
  · simpa using h.of_failed hPhase (rx := []) (by simp) (.inr rfl)

/-- Settles O50: the reset values are those of IDLE, and no file is open. -/
theorem resetMeetsTheInvariant : Obligations.ResetMeetsTheInvariant := by
  unfold Obligations.ResetMeetsTheInvariant
  exact inv_of_reset_values (Nat.zero_le _) State.reset_rfState State.reset_rfTag State.reset_rfPos State.reset_rfCause
    State.reset_txlog rfl

/-- Settles O51: an operation that a packet decodes to is well formed and keeps the invariant, a refused OP only
answers, and FILE changes outside a session only. -/
theorem stepKeepsTheInvariant : Obligations.StepKeepsTheInvariant := by
  unfold Obligations.StepKeepsTheInvariant
  intro s t h hStep
  obtain ⟨packet, rest, i, -, hDecode, hExec⟩ | ⟨packet, rest, op, -, -, rfl⟩ |
    ⟨contents, rest, -, hPhase, hLength, rfl⟩ | ⟨rest, -, hPhase, rfl⟩ := step_cases hStep
  · exact (h.of_rest s.crc s.outlog s.reslog rest).of_exec (wf_of_decode hDecode) hExec
  · exact h.of_rest s.crc s.outlog _ rest
  · exact (h.of_file hPhase hLength true).of_rest s.crc s.outlog s.reslog rest
  · exact (h.of_file hPhase h.1 false).of_rest s.crc s.outlog s.reslog rest

/-- The only operation that leads from AWAIT_REQ to DONE is a pull request that FILE cannot fill (R133). -/
theorem exists_short_pull_of_done {i : Instr} {s t : State} (hPhase : s.rfState = .awaitReq)
    (hExec : exec i s = .next t) (hDone : t.rfState = .done) :
    ∃ rx, i = .rfPull rx ∧ 3 ≤ rx.length ∧
      (memRead s.file s.rfPos.toNat (requestedLength rx).toNat).length < (requestedLength rx).toNat ∧
        t = servePull (requestedLength rx) { s with rxlog := s.rxlog ++ rx } := by
  obtain ⟨-, rfl⟩ | ⟨-, he⟩ | ⟨hi, -⟩ | ⟨rx, -, -, -, rfl⟩ | ⟨rx, rfl, -, hWhole, rfl⟩ | ⟨-, -, rfl⟩ := exec_cases hExec
  case inr.inr.inr.inr.inl =>
    obtain ⟨-, e⟩ | ⟨hShort, -⟩ := servePull_cases (requestedLength rx) { s with rxlog := s.rxlog ++ rx }
    · rw [e] at hDone
      exact absurd (hPhase.symm.trans hDone) nofun
    · exact ⟨rx, rfl, hWhole, hShort, rfl⟩
  case inr.inl =>
    obtain ⟨hSame, -⟩ := he.relay_unchanged
    exact absurd (hPhase.symm.trans (hSame.symm.trans hDone)) nofun
  case inr.inr.inl =>
    cases (exec_start_of_ne_idle hi (by simp [hPhase])).symm.trans hExec
    exact absurd (hPhase.symm.trans hDone) nofun
  all_goals cases hDone

/-- Settles O52: the step into DONE is the service of a pull request that fell short, which has relayed the whole
file. -/
theorem doneMeansTheWholeFileWasRelayed : Obligations.DoneMeansTheWholeFileWasRelayed := by
  unfold Obligations.DoneMeansTheWholeFileWasRelayed
  intro s t h hPhase hStep hDone
  obtain ⟨packet, rest, i, -, hDecode, hExec⟩ | ⟨packet, rest, op, -, -, rfl⟩ | ⟨_, _, -, hOther, -⟩ |
    ⟨_, -, hOther, -⟩ := step_cases hStep
  · obtain ⟨rx, rfl, hWhole, hShort, rfl⟩ := exists_short_pull_of_done (by exact hPhase) hExec hDone
    obtain ⟨-, -, hFile, hPos, hRelayed⟩ := servePull_short (h.of_rest s.crc s.outlog s.reslog rest) hPhase
      (length_eq_three_of_wf (wf_of_decode hDecode) hWhole) hShort rfl
    rw [record_nil] at hRelayed
    exact ⟨hFile, by rw [hFile]; exact hPos, by rw [hFile]; exact hRelayed⟩
  · exact absurd (hPhase.symm.trans hDone) nofun
  · exact absurd hPhase hOther
  · exact absurd hPhase hOther

end Sys2Proof.Machine
end

section
/-! PROOFS. CrcLaws: the CRC steps are linear and invertible, and what follows for checksums (`40_crc.md` section 3,
R96, R106). -/

namespace Sys2Proof.Machine

theorem crc16_eq (data : Bytes) : crc16 data = crcFrom crcInitial data := rfl

/-! Linearity over XOR -/

/-- The polynomial enters the bit step once for every set transient bit, so two of them cancel. -/
theorem crcBit_xor (r q : Word16) (b c : Bool) : crcBit (r ^^^ q) (b ^^ c) = crcBit r b ^^^ crcBit q c := by
  have hTransient : ((r ^^^ q).msb ^^ (b ^^ c)) = ((r.msb ^^ b) ^^ (q.msb ^^ c)) := by
    simp only [BitVec.msb_xor, Bool.xor_assoc, Bool.xor_left_comm]
  have hPoly : ∀ t u : Bool,
      (if (t ^^ u) then crcPoly else 0) = (if t then crcPoly else 0) ^^^ (if u then crcPoly else 0) := by decide
  rw [crcBit_eq, crcBit_eq, crcBit_eq, hTransient, hPoly, BitVec.shiftLeft_xor_distrib]
  ac_rfl

theorem crcByte_xor (r q : Word16) (d e : Byte) : crcByte (r ^^^ q) (d ^^^ e) = crcByte r d ^^^ crcByte q e := by
  simp only [crcByte, List.foldl_cons, List.foldl_nil, BitVec.getLsbD_xor, crcBit_xor]

theorem crcFrom_xor (x : Bytes) : ∀ (y : Bytes) (r q : Word16), x.length = y.length →
    crcFrom (r ^^^ q) (List.zipWith (· ^^^ ·) x y) = crcFrom r x ^^^ crcFrom q y := by
  induction x with
  | nil =>
    intro y r q h
    obtain rfl := List.length_eq_zero_iff.1 h.symm
    rfl
  | cons d x ih =>
    intro y r q h
    cases y with
    | nil => cases h
    | cons e y =>
      rw [List.zipWith_cons_cons, crcFrom_cons, crcFrom_cons, crcFrom_cons, crcByte_xor, ih y _ _ (by simpa using h)]

theorem zipWith_xor_self (x : Bytes) : List.zipWith (· ^^^ ·) x x = List.replicate x.length 0 := by
  rw [List.zipWith_self, ← List.map_const']
  simp

/-- Settles O10: the third clause is the second one along two sequences, whose sum is then added to itself. -/
theorem checksumIsLinearOverXor : Obligations.ChecksumIsLinearOverXor := by
  unfold Obligations.ChecksumIsLinearOverXor
  refine ⟨crcBit_xor, crcByte_xor, fun x y h => ?_⟩
  have hLength : (List.zipWith (· ^^^ ·) x y).length = x.length := by
    rw [List.length_zipWith, ← h, Nat.min_self]
  calc crc16 x ^^^ crc16 y ^^^ crc16 (List.zipWith (· ^^^ ·) x y)
      = crcFrom (crcInitial ^^^ crcInitial) (List.zipWith (· ^^^ ·) x y) ^^^
          crcFrom crcInitial (List.zipWith (· ^^^ ·) x y) := by rw [crcFrom_xor x y _ _ h]; rfl
    _ = crcFrom (crcInitial ^^^ crcInitial ^^^ crcInitial) (List.replicate x.length 0) := by
        rw [← crcFrom_xor _ _ _ _ rfl, zipWith_xor_self, hLength]
    _ = crc16 (List.replicate x.length 0) := by rw [BitVec.xor_self, BitVec.zero_xor]; rfl

/-! A byte step with the register's own high byte shifts it out -/

theorem crcByte_hi8 (r : Word16) : crcByte r (hi8 r) = r <<< 8 := by
  have hBit : ∀ k < 8, (hi8 r).getLsbD (7 - k) = (r <<< k).msb := by
    intro k hk
    rw [hi8, BitVec.getLsbD_extractLsb', BitVec.msb_shiftLeft, BitVec.getMsbD]
    have h1 : 7 - k < 8 := by omega
    have h2 : k < 16 := by omega
    have h3 : 8 + (7 - k) = 16 - 1 - k := by omega
    simp [h1, h2, h3]
  have hStep : ∀ k < 8, crcBit (r <<< k) ((hi8 r).getLsbD (7 - k)) = r <<< (k + 1) := by
    intro k hk
    rw [hBit k hk, crcBit_of_msb, BitVec.shiftLeft_add]
  have h0 : crcBit r ((hi8 r).getLsbD 7) = r <<< 1 := by
    simpa using hStep 0 (by decide)
  simp only [crcByte, List.foldl_cons, List.foldl_nil]
  rw [h0, hStep 1 (by decide), hStep 2 (by decide), hStep 3 (by decide), hStep 4 (by decide), hStep 5 (by decide),
    hStep 6 (by decide), hStep 7 (by decide)]

theorem hi8_shiftLeft_eight (r : Word16) : hi8 (r <<< 8) = lo8 r := by
  apply BitVec.eq_of_toNat_eq
  rw [hi8_toNat, lo8_toNat, BitVec.toNat_shiftLeft, Nat.shiftLeft_eq]
  omega

/-- A register's own two bytes, high byte first, shift all of it out. -/
theorem crcFrom_self (r : Word16) : crcFrom r (be16 r) = 0 := by
  have hSecond : crcByte (r <<< 8) (lo8 r) = r <<< 8 <<< 8 := by rw [← hi8_shiftLeft_eight, crcByte_hi8]
  rw [be16, crcFrom_cons, crcFrom_cons, crcFrom_nil, crcByte_hi8, hSecond, ← BitVec.shiftLeft_add]
  exact BitVec.shiftLeft_eq_zero (Nat.le_refl 16)

theorem crc16_append_checksum (m : Bytes) : crc16 (m ++ be16 (crc16 m)) = 0 := by
  rw [crc16_append, crcFrom_self]

/-- Settles O11: the checksum is the register that its own two bytes shift out. -/
theorem appendedChecksumLeavesZeroResidue : Obligations.AppendedChecksumLeavesZeroResidue := by
  unfold Obligations.AppendedChecksumLeavesZeroResidue
  exact crc16_append_checksum

/-- Settles O22: the report's frame is its body and the body's checksum, which the envelope around it does not touch. -/
theorem envelopedReportChecksumCoversTheReportAlone : Obligations.EnvelopedReportChecksumCoversTheReportAlone := by
  unfold Obligations.EnvelopedReportChecksumCoversTheReportAlone
  intro n last chunk seq flags0 flags1 s hFits
  have hExec := execEnveloped_report n last chunk seq flags0 flags1 s hFits
  rw [envelopeFrame_eq] at hExec
  have hLength : (reportBody n last chunk).length = 4 + chunk.length := by
    rw [reportBody_eq, List.length_append]
    rfl
  exact ⟨reportBody n last chunk, _, hExec, hLength, by dsimp only, rfl, crc16_append_checksum _⟩

/-! The step is invertible, so inputs that fit the register are told apart -/

/-- The polynomial's lowest bit shows in the result whether it was added, so nothing but 0 steps to 0. -/
theorem crcBit_false_eq_zero {r : Word16} (h : crcBit r false = 0) : r = 0 := by
  rw [crcBit_eq, Bool.xor_false] at h
  have hMsb : r.msb = false := by
    by_contra hSet
    rw [Bool.not_eq_false] at hSet
    have hLow := congrArg (fun v => v.getLsbD 0) h
    simp [hSet, crcPoly] at hLow
    exact absurd hLow (by decide)
  rw [hMsb] at h
  have hShift : 2 * r.toNat % 65536 = 0 := by
    rw [← toNat_shiftLeft_one]
    simpa using congrArg BitVec.toNat h
  rw [BitVec.msb_eq_decide] at hMsb
  apply BitVec.eq_of_toNat_eq
  simp at hMsb ⊢
  omega

theorem crcBit_false_injective {r q : Word16} (h : crcBit r false = crcBit q false) : r = q := by
  apply BitVec.xor_eq_zero_iff.1
  apply crcBit_false_eq_zero
  calc crcBit (r ^^^ q) false = crcBit r false ^^^ crcBit q false := crcBit_xor r q false false
    _ = 0 := by rw [h]; exact BitVec.xor_self

theorem crcByte_zero_injective {r q : Word16} (h : crcByte r 0 = crcByte q 0) : r = q := by
  simp only [crcByte, List.foldl_cons, List.foldl_nil] at h
  iterate 8 replace h := crcBit_false_injective h
  exact h

/-- Data enters the register at its high byte: stepping with `d` is stepping with 0 after adding `d` there. -/
theorem crcByte_xor_joinBE16 (r : Word16) (d e : Byte) :
    crcByte (r ^^^ joinBE16 d e) 0 = crcByte r d ^^^ joinBE16 e 0 := by
  have hShift : joinBE16 d e <<< 8 = joinBE16 e 0 := by
    apply BitVec.eq_of_toNat_eq
    have := e.isLt
    rw [BitVec.toNat_shiftLeft, joinBE16_toNat, joinBE16_toNat, Nat.shiftLeft_eq]
    simp
    omega
  have hHigh : crcByte (joinBE16 d e) d = joinBE16 e 0 := by
    have := crcByte_hi8 (joinBE16 d e)
    rwa [hi8_joinBE16, hShift] at this
  calc crcByte (r ^^^ joinBE16 d e) 0 = crcByte (r ^^^ joinBE16 d e) (d ^^^ d) := by rw [BitVec.xor_self]; rfl
    _ = crcByte r d ^^^ joinBE16 e 0 := by rw [crcByte_xor, hHigh]

@[simp] theorem joinBE16_zero_zero : joinBE16 0 0 = 0 := rfl

/-- One byte is its register with the byte added at the top, stepped with 0. -/
theorem crcByte_eq_zero_step (r : Word16) (d : Byte) : crcByte r d = crcByte (r ^^^ joinBE16 d 0) 0 := by
  rw [crcByte_xor_joinBE16, joinBE16_zero_zero]
  exact BitVec.xor_zero.symm

/-- Two bytes are their register with both added, stepped twice with 0. -/
theorem crcByte_crcByte_eq_zero_steps (r : Word16) (d e : Byte) :
    crcByte (crcByte r d) e = crcByte (crcByte (r ^^^ joinBE16 d e) 0) 0 := by
  rw [crcByte_xor_joinBE16, crcByte_eq_zero_step (crcByte r d)]

theorem joinBE16_injective {a b c d : Byte} (h : joinBE16 a b = joinBE16 c d) : a = c ∧ b = d :=
  ⟨by rw [← hi8_joinBE16 a b, h, hi8_joinBE16], by rw [← lo8_joinBE16 a b, h, lo8_joinBE16]⟩

theorem crcByte_injective_data {r : Word16} {a b : Byte} (h : crcByte r a = crcByte r b) : a = b := by
  rw [crcByte_eq_zero_step r a, crcByte_eq_zero_step r b] at h
  obtain ⟨hHigh, -⟩ := joinBE16_injective ((BitVec.xor_right_inj r).1 (crcByte_zero_injective h))
  exact hHigh

theorem crcByte_crcByte_injective_data {r : Word16} {a a' b b' : Byte}
    (h : crcByte (crcByte r a) a' = crcByte (crcByte r b) b') : a = b ∧ a' = b' := by
  rw [crcByte_crcByte_eq_zero_steps r a a', crcByte_crcByte_eq_zero_steps r b b'] at h
  exact joinBE16_injective ((BitVec.xor_right_inj r).1 (crcByte_zero_injective (crcByte_zero_injective h)))

/-- Settles O12: inputs of one or two bytes are added into the register, and steps with 0 are injective. -/
theorem checksumSeparatesOneAndTwoByteInputs : Obligations.ChecksumSeparatesOneAndTwoByteInputs := by
  unfold Obligations.ChecksumSeparatesOneAndTwoByteInputs
  simp only [crcFrom_cons, crcFrom_nil]
  exact ⟨fun _ _ _ h => crcByte_injective_data h, fun _ _ _ _ _ h => crcByte_crcByte_injective_data h⟩

/-- The outer bytes of a 3-byte input, equal and alone in it, never cancel: a check of the 256 bytes. -/
theorem crcFrom_outer_bytes_ne_zero : ∀ e : Byte, crcFrom 0 [e, 0, e] = 0 → e = 0 := by
  decide +kernel

/-- Settles O13: two bytes are told apart; the sum of three bytes and their reversal has equal outer bytes and 0
between; 08 89 00 00 has the checksum of its reversal. -/
theorem checksumIsOrderSensitiveUpToThreeBytes : Obligations.ChecksumIsOrderSensitiveUpToThreeBytes := by
  unfold Obligations.ChecksumIsOrderSensitiveUpToThreeBytes
  refine ⟨fun a b h => ?two, fun a b c h => ?three, [0x08, 0x89, 0x00, 0x00], rfl, by decide +kernel, by decide⟩
  case two =>
    simp only [crc16_eq, crcFrom_cons, crcFrom_nil] at h
    obtain ⟨rfl, -⟩ := crcByte_crcByte_injective_data h
    rfl
  case three =>
    have hSum := crcFrom_xor [a, b, c] [c, b, a] crcInitial crcInitial rfl
    rw [← crc16_eq, ← crc16_eq, h] at hSum
    simp only [BitVec.xor_self, List.zipWith_cons_cons, List.zipWith_nil_left, BitVec.xor_comm c a] at hSum
    rw [BitVec.xor_eq_zero_iff.1 (crcFrom_outer_bytes_ne_zero _ hSum)]

/-! CRC.COMPUTE and its stepwise expansion -/

theorem exec_crcCompute (data : Bytes) (s : State) :
    exec (.crcCompute data) s = .next ((s.setCrc (crc16 data)).respond (.value16 (crc16 data))) := rfl

theorem execAll_cons_of_next {i : Instr} {s t : State} (h : exec i s = .next t) (rest : List Instr) :
    execAll (i :: rest) s = execAll rest t := by
  simp only [execAll, h]

/-- One CRC.BYTE for each byte folds the byte step over CRC, and each answers Ok. -/
theorem execAll_map_crcByte_append (data : Bytes) (rest : List Instr) : ∀ s : State,
    execAll (data.map .crcByte ++ rest) s =
      execAll rest { s with
        crc := crcFrom s.crc data, reslog := s.reslog ++ List.replicate data.length .ok } := by
  induction data with
  | nil =>
    intro s
    simp
  | cons d data ih =>
    intro s
    rw [List.map_cons, List.cons_append, execAll_cons_of_next (exec_crcByte d s), ih]
    simp [State.respond_setCrc_eq, List.replicate_succ]

/-- Settles O9: CRC.INIT, a fold of CRC.BYTE and CRC.READ run to the register that CRC.COMPUTE writes. -/
theorem crcComputeEqualsTheStepwiseChecksum : Obligations.CrcComputeEqualsTheStepwiseChecksum := by
  unfold Obligations.CrcComputeEqualsTheStepwiseChecksum
  intro data s
  refine ⟨by rw [exec_crcCompute, State.respond_setCrc_eq], [.ok] ++ List.replicate data.length .ok, ?_⟩
  rw [stepwiseChecksum, List.append_assoc, List.singleton_append, execAll_cons_of_next (exec_crcInit s),
    execAll_map_crcByte_append, execAll_cons_of_next (exec_crcRead _)]
  simp [execAll, State.respond_eq, State.setCrc, crc16]

end Sys2Proof.Machine
end

section
/-! PROOFS. Operations: one equation for each way an operation can go, and what follows of registers, histories and the
environment (`10_state.md` sections 1 to 7, `42_relay_framer.md` sections 4 to 6, `60_exceptions.md` section 2). -/

namespace Sys2Proof.Machine

/-! A start: one equation for each way (R123) -/

theorem StartsWith.exec_eq {i : Instr} {tag : Byte} {metadata : Bytes} (h : StartsWith i tag metadata) (s : State) :
    exec i s = .next (startSession tag metadata s) := by
  obtain ⟨rfl, rfl, rfl⟩ | ⟨_, _, rfl, rfl, rfl⟩ | ⟨_, _, _, rfl, rfl, rfl⟩ := h <;> rfl

theorem startSession_of_ne_idle {s : State} (hPhase : s.rfState ≠ .idle) (tag : Byte) (metadata : Bytes) :
    startSession tag metadata s = { s with reslog := s.reslog ++ [.refused .sessionNotIdle] } :=
  if_pos hPhase

theorem startSession_of_fileOpen_eq_false {s : State} (hPhase : s.rfState = .idle) (hOpen : s.fileOpen = false)
    (tag : Byte) (metadata : Bytes) :
    startSession tag metadata s =
      { s with rfCause := .fileOpenFailed, reslog := s.reslog ++ [.err .fileOpenFailed 0] } := by
  obtain ⟨hOther, -⟩ | ⟨-, -, e⟩ | ⟨-, hTrue, -⟩ := startSession_cases tag metadata s
  · exact absurd hPhase hOther
  · exact e
  · exact absurd (hOpen.symm.trans hTrue) nofun

theorem startSession_of_fileOpen {s : State} (hPhase : s.rfState = .idle) (hOpen : s.fileOpen = true)
    (tag : Byte) (metadata : Bytes) :
    startSession tag metadata s =
      { s with
        rfTag := tag, rfPos := 0, rfCause := .none, rfState := .awaitReq
        txlog := s.txlog ++ record tag rtHeader metadata, reslog := s.reslog ++ [.ok] } := by
  obtain ⟨hOther, -⟩ | ⟨-, hFalse, -⟩ | ⟨-, -, e⟩ := startSession_cases tag metadata s
  · exact absurd hPhase hOther
  · exact absurd (hOpen.symm.trans hFalse) nofun
  · exact e

/-! The two events (R128, R131) -/

theorem exec_rfPull_of_length_ge {rx : Bytes} {s : State} (hPhase : s.rfState = .awaitReq) (hWhole : 3 ≤ rx.length) :
    exec (.rfPull rx) s = .next (servePull (requestedLength rx) { s with rxlog := s.rxlog ++ rx }) := by
  obtain ⟨hOther, -⟩ | ⟨-, hShort, -⟩ | ⟨-, -, e⟩ := execRfPull_cases rx s
  · exact absurd hPhase hOther
  · omega
  · exact e

theorem exec_rfPull_of_ne_awaitReq {s : State} (hPhase : s.rfState ≠ .awaitReq) (rx : Bytes) :
    exec (.rfPull rx) s = .fault .pullNotEnabled :=
  if_pos hPhase

theorem exec_rfAbort_of_awaitReq {s : State} (hPhase : s.rfState = .awaitReq) :
    exec .rfAbort s = .next { s with rfCause := .connClosed, rfState := .failed } :=
  if_neg (not_not.2 hPhase)

theorem exec_rfAbort_of_ne_awaitReq {s : State} (hPhase : s.rfState ≠ .awaitReq) :
    exec .rfAbort s = .fault .abortNotEnabled :=
  if_pos hPhase

theorem servePull_of_le {req : Word16} {s : State}
    (hFull : req.toNat ≤ (memRead s.file s.rfPos.toNat req.toNat).length) :
    servePull req s =
      { s with
        rfPos := s.rfPos + BitVec.ofNat 32 (memRead s.file s.rfPos.toNat req.toNat).length
        txlog := s.txlog ++ record s.rfTag rtData (memRead s.file s.rfPos.toNat req.toNat) } := by
  obtain ⟨-, e⟩ | ⟨hShort, -⟩ := servePull_cases req s
  · exact e
  · exact absurd hShort hFull.not_gt

theorem servePull_of_lt {req : Word16} {s : State}
    (hShort : (memRead s.file s.rfPos.toNat req.toNat).length < req.toNat) :
    servePull req s =
      { s with
        rfPos := s.rfPos + BitVec.ofNat 32 (memRead s.file s.rfPos.toNat req.toNat).length, rfState := .done
        txlog := s.txlog ++ record s.rfTag rtData (memRead s.file s.rfPos.toNat req.toNat) ++
          record s.rfTag rtData [] } := by
  obtain ⟨hFull, -⟩ | ⟨-, e⟩ := servePull_cases req s
  · exact absurd hShort hFull.not_gt
  · exact e

/-! What the relay framer's operations leave alone -/

theorem startSession_unchanged (tag : Byte) (metadata : Bytes) (s : State) :
    (startSession tag metadata s).crc = s.crc ∧ (startSession tag metadata s).file = s.file ∧
      (startSession tag metadata s).fileOpen = s.fileOpen ∧ (startSession tag metadata s).inputs = s.inputs := by
  obtain ⟨-, e⟩ | ⟨-, -, e⟩ | ⟨-, -, e⟩ := startSession_cases tag metadata s <;> rw [e] <;> exact ⟨rfl, rfl, rfl, rfl⟩

theorem servePull_unchanged (req : Word16) (s : State) :
    (servePull req s).crc = s.crc ∧ (servePull req s).file = s.file ∧ (servePull req s).fileOpen = s.fileOpen ∧
      (servePull req s).inputs = s.inputs ∧ (servePull req s).rfTag = s.rfTag ∧
      (servePull req s).rfCause = s.rfCause ∧ (servePull req s).reslog = s.reslog ∧
      (servePull req s).rfPos =
        s.rfPos + BitVec.ofNat 32 (memRead s.file s.rfPos.toNat req.toNat).length := by
  obtain ⟨-, e⟩ | ⟨-, e⟩ := servePull_cases req s <;> rw [e] <;> exact ⟨rfl, rfl, rfl, rfl, rfl, rfl, rfl, rfl⟩

/-- Settles O44: each kind of operation leaves port FILE and the pending inputs alone. -/
theorem noOperationWritesTheEnvironment : Obligations.NoOperationWritesTheEnvironment := by
  unfold Obligations.NoOperationWritesTheEnvironment
  intro i s t hExec
  suffices h : t.file = s.file ∧ t.fileOpen = s.fileOpen ∧ t.inputs = s.inputs by
    obtain ⟨hFile, hRest⟩ := h
    exact ⟨fun addr n => by rw [hFile], hRest⟩
  obtain ⟨-, rfl⟩ | ⟨-, -, _, _, rfl, -⟩ | ⟨-, tag, metadata, -, rfl⟩ | ⟨_, -, -, -, rfl⟩ | ⟨rx, -, -, -, rfl⟩ |
    ⟨-, -, rfl⟩ := exec_cases hExec
  case inr.inr.inl =>
    obtain ⟨-, hFile, hOpen, hInputs⟩ := startSession_unchanged tag metadata s
    exact ⟨hFile, hOpen, hInputs⟩
  case inr.inr.inr.inr.inl =>
    obtain ⟨-, hFile, hOpen, hInputs, -⟩ :=
      servePull_unchanged (requestedLength rx) { s with rxlog := s.rxlog ++ rx }
    exact ⟨hFile, hOpen, hInputs⟩
  all_goals exact ⟨rfl, rfl, rfl⟩

/-- Settles O45: a class of operations at a time; only the two events need their phase. -/
theorem everyEnabledOperationIsAnswered : Obligations.EveryEnabledOperationIsAnswered := by
  unfold Obligations.EveryEnabledOperationIsAnswered
  intro i s hEnabled
  obtain rfl | hi | hi | ⟨rx, rfl⟩ | rfl := instr_class i
  · exact ⟨_, exec_sysReset s⟩
  · obtain ⟨t, hExec, -⟩ := exec_side hi s
    exact ⟨t, hExec⟩
  · obtain ⟨_, _, -, hExec⟩ := exec_start hi s
    exact ⟨_, hExec⟩
  · have hPhase : s.rfState = .awaitReq := hEnabled (.inl rfl)
    obtain hShort | hWhole := lt_or_ge rx.length 3
    · exact ⟨_, exec_rfPull_of_length_lt hPhase hShort⟩
    · exact ⟨_, exec_rfPull_of_length_ge hPhase hWhole⟩
  · exact ⟨_, exec_rfAbort_of_awaitReq (hEnabled (.inr rfl))⟩

/-! The phase, the tag, the position and TX -/

/-- The row of a start in the transition table (R133). -/
theorem phase_of_start {i : Instr} {s t : State} (hi : isStart i = true) (hExec : exec i s = .next t) :
    (s.rfState = .idle → s.fileOpen = true → t.rfState = .awaitReq ∧ t.rfCause = .none) ∧
    (s.rfState = .idle → s.fileOpen = false → t.rfState = .idle ∧ t.rfCause = .fileOpenFailed) ∧
    (s.rfState ≠ .idle → t.rfState = s.rfState ∧ t.rfCause = s.rfCause) := by
  obtain ⟨tag, metadata, -, hStart⟩ := exec_start hi s
  cases hStart.symm.trans hExec
  refine ⟨fun hPhase hOpen => ?_, fun hPhase hOpen => ?_, fun hPhase => ?_⟩
  · rw [startSession_of_fileOpen hPhase hOpen]
    exact ⟨rfl, rfl⟩
  · rw [startSession_of_fileOpen_eq_false hPhase hOpen]
    exact ⟨hPhase, rfl⟩
  · rw [startSession_of_ne_idle hPhase]
    exact ⟨rfl, rfl⟩

/-- The row of a pull request in the transition table (R133): a short read, a full service, a service that fell
short. -/
theorem phase_of_rfPull {rx : Bytes} {s t : State} (hExec : exec (.rfPull rx) s = .next t) :
    s.rfState = .awaitReq ∧
    (rx.length < 3 → t.rfState = .failed ∧ t.rfCause = .relayShortRead) ∧
    (3 ≤ rx.length → (memRead s.file s.rfPos.toNat (requestedLength rx).toNat).length = (requestedLength rx).toNat →
      t.rfState = .awaitReq ∧ t.rfCause = s.rfCause) ∧
    (3 ≤ rx.length → (memRead s.file s.rfPos.toNat (requestedLength rx).toNat).length < (requestedLength rx).toNat →
      t.rfState = .done ∧ t.rfCause = s.rfCause) := by
  have hPhase : s.rfState = .awaitReq := by
    by_contra hOther
    exact nomatch (exec_rfPull_of_ne_awaitReq hOther rx).symm.trans hExec
  refine ⟨hPhase, fun hShort => ?_, fun hWhole hFull => ?_, fun hWhole hLess => ?_⟩
  · cases (exec_rfPull_of_length_lt hPhase hShort).symm.trans hExec
    exact ⟨rfl, rfl⟩
  · cases (exec_rfPull_of_length_ge hPhase hWhole).symm.trans hExec
    rw [servePull_of_le (by exact hFull.ge)]
    exact ⟨hPhase, rfl⟩
  · cases (exec_rfPull_of_length_ge hPhase hWhole).symm.trans hExec
    rw [servePull_of_lt (by exact hLess)]
    exact ⟨rfl, rfl⟩

/-- Settles O36: row by row; a read never gives more bytes than asked for. -/
theorem relayPhaseFollowsTheTransitionTable : Obligations.RelayPhaseFollowsTheTransitionTable := by
  unfold Obligations.RelayPhaseFollowsTheTransitionTable
  intro i s t hExec
  refine ⟨?reset, fun hi => phase_of_start hi hExec, ?pull, ?abort, fun hi => ?side⟩
  case reset =>
    rintro rfl
    cases (exec_sysReset s).symm.trans hExec
    exact ⟨rfl, rfl⟩
  case pull =>
    rintro rx _ _ rfl rfl rfl
    obtain ⟨hPhase, hShort, hFull, hLess⟩ := phase_of_rfPull hExec
    refine ⟨hPhase, hShort, hFull, hLess, ?_⟩
    rw [memRead_length]
    exact Nat.min_le_left _ _
  case abort =>
    rintro rfl
    obtain ⟨-, e⟩ | ⟨hPhase, e⟩ := execRfAbort_cases s <;> cases e.symm.trans hExec
    exact ⟨hPhase, rfl, rfl⟩
  case side =>
    obtain ⟨t', ht, he⟩ := exec_side hi s
    cases ht.symm.trans hExec
    obtain ⟨hState, hCause, -⟩ := he.relay_unchanged
    exact ⟨hState, hCause⟩

/-- Each start has its own tag (R77, R124 to R126). -/
theorem StartsWith.tag_eq {i : Instr} {tag : Byte} {metadata : Bytes} (h : StartsWith i tag metadata) :
    (i.op = .rfStartBridge ∧ tag = 0x20) ∨ (i.op = .rfStartNcp ∧ tag = 0x30) ∨
      (i.op = .rfStartNode ∧ tag = 0x40) := by
  obtain ⟨rfl, rfl, -⟩ | ⟨_, _, rfl, rfl, -⟩ | ⟨_, _, _, rfl, rfl, -⟩ := h
  · exact .inl ⟨rfl, rfl⟩
  · exact .inr (.inl ⟨rfl, rfl⟩)
  · exact .inr (.inr ⟨rfl, rfl⟩)

/-- Settles O38: of all an operation can do, a reset and a start that goes on write RF.TAG. -/
theorem tagIsFixedForTheSession : Obligations.TagIsFixedForTheSession := by
  unfold Obligations.TagIsFixedForTheSession
  intro i s t hExec
  obtain ⟨rfl, rfl⟩ | ⟨-, he⟩ | ⟨hi, tag, metadata, hStart, rfl⟩ | ⟨_, -, -, -, rfl⟩ | ⟨rx, -, -, -, rfl⟩ |
    ⟨-, -, rfl⟩ := exec_cases hExec
  · exact .inr (.inl ⟨rfl, rfl⟩)
  · obtain ⟨-, -, hTag, -⟩ := he.relay_unchanged
    exact .inl hTag
  · obtain ⟨-, e⟩ | ⟨-, -, e⟩ | ⟨hPhase, -, e⟩ := startSession_cases tag metadata s <;> rw [e]
    · exact .inl rfl
    · exact .inl rfl
    · exact .inr (.inr ⟨hi, hPhase, hStart.tag_eq⟩)
  · exact .inl rfl
  · obtain ⟨-, -, -, -, hTag, -⟩ := servePull_unchanged (requestedLength rx) { s with rxlog := s.rxlog ++ rx }
    exact .inl hTag
  · exact .inl rfl

/-- RF.POS after an operation (R25): reset or set to 0 by a start, advanced inside FILE by a pull request, or as it
was. -/
theorem rfPos_cases {i : Instr} {s t : State} (hInv : Inv s) (hExec : exec i s = .next t) :
    ((i = .sysReset ∨ isStart i = true) ∧ t.rfPos = 0) ∨
    (s.rfState = .awaitReq ∧ s.rfPos.toNat ≤ t.rfPos.toNat ∧ t.rfPos.toNat ≤ s.file.length) ∨ t.rfPos = s.rfPos := by
  obtain ⟨rfl, rfl⟩ | ⟨-, he⟩ | ⟨hi, tag, metadata, -, rfl⟩ | ⟨_, -, -, -, rfl⟩ | ⟨rx, -, hPhase, -, rfl⟩ |
    ⟨-, -, rfl⟩ := exec_cases hExec
  · exact .inl ⟨.inl rfl, rfl⟩
  · obtain ⟨-, -, -, hPos, -⟩ := he.relay_unchanged
    exact .inr (.inr hPos)
  · obtain ⟨-, e⟩ | ⟨-, -, e⟩ | ⟨-, -, e⟩ := startSession_cases tag metadata s <;> rw [e]
    · exact .inr (.inr rfl)
    · exact .inr (.inr rfl)
    · exact .inl ⟨.inr hi, rfl⟩
  · exact .inr (.inr rfl)
  · obtain ⟨hFile, hp⟩ := hInv
    obtain ⟨-, -, hInside, -⟩ := (phaseInv_awaitReq hPhase).1 hp
    obtain ⟨-, -, -, -, -, -, -, hPos⟩ :=
      servePull_unchanged (requestedLength rx) { s with rxlog := s.rxlog ++ rx }
    have hEnd := toNat_add_memRead_length hInside hFile (requestedLength rx).toNat
    have hRead := memRead_length s.file s.rfPos.toNat (requestedLength rx).toNat
    refine .inr (.inl ⟨hPhase, ?_, ?_⟩) <;> rw [hPos] <;> simp only [hEnd] <;> omega
  · exact .inr (.inr rfl)

/-- Settles O39: from the three ways RF.POS can go; a waiting session has RF.POS inside FILE. -/
theorem positionNeverDecreasesNorPassesTheFile : Obligations.PositionNeverDecreasesNorPassesTheFile := by
  unfold Obligations.PositionNeverDecreasesNorPassesTheFile
  intro i s t hInv hExec
  obtain ⟨hi, hZero⟩ | ⟨-, hGrows, hInside⟩ | hSame := rfPos_cases hInv hExec
  · refine ⟨.inl hZero, fun hReset hStart => ?_, fun _ => by simp [hZero]⟩
    exact (hi.elim hReset fun h => by simp [hStart] at h).elim
  · exact ⟨.inr hGrows, fun _ _ => hGrows, fun _ => hInside⟩
  · rw [hSame]
    refine ⟨.inr (Nat.le_refl _), fun _ _ => Nat.le_refl _, fun hPhase => ?_⟩
    obtain ⟨-, -, hInside, -⟩ := (phaseInv_awaitReq hPhase).1 hInv.2
    exact hInside

/-- Settles O40: of all an operation can do, a start that goes on and the service of a request send. -/
theorem nothingIsSentUnsolicited : Obligations.NothingIsSentUnsolicited := by
  unfold Obligations.NothingIsSentUnsolicited
  intro i s t hExec
  obtain ⟨rfl, rfl⟩ | ⟨-, he⟩ | ⟨hi, tag, metadata, -, rfl⟩ | ⟨_, -, -, -, rfl⟩ | ⟨rx, rfl, hPhase, hWhole, rfl⟩ |
    ⟨-, -, rfl⟩ := exec_cases hExec
  · exact .inr (.inl ⟨rfl, rfl⟩)
  · obtain ⟨-, -, -, -, hTx⟩ := he.relay_unchanged
    exact .inl hTx
  · obtain ⟨-, e⟩ | ⟨-, -, e⟩ | ⟨hPhase, -, e⟩ := startSession_cases tag metadata s <;> rw [e]
    · exact .inl rfl
    · exact .inl rfl
    · exact .inr (.inr (.inl ⟨hi, hPhase, metadata, rfl⟩))
  · exact .inl rfl
  · refine .inr (.inr (.inr ⟨rx, memRead s.file s.rfPos.toNat (requestedLength rx).toNat, rfl, hWhole, hPhase, ?_⟩))
    obtain ⟨-, e⟩ | ⟨-, e⟩ := servePull_cases (requestedLength rx) { s with rxlog := s.rxlog ++ rx } <;> rw [e]
    · exact .inl rfl
    · exact .inr rfl
  · exact .inl rfl

/-! The two events: outside a session, and at the corners of a service -/

/-- Settles O33: both events are faults outside AWAIT_REQ. -/
theorem eventsOutsideASessionDoNotExist : Obligations.EventsOutsideASessionDoNotExist := by
  unfold Obligations.EventsOutsideASessionDoNotExist
  exact fun rx s hPhase => ⟨exec_rfPull_of_ne_awaitReq hPhase rx, exec_rfAbort_of_ne_awaitReq hPhase⟩

theorem memRead_zero (file : Bytes) (addr : Nat) : memRead file addr 0 = [] :=
  List.take_zero

theorem memRead_of_length_le {file : Bytes} {addr : Nat} (h : file.length ≤ addr) (n : Nat) :
    memRead file addr n = [] := by
  rw [memRead, List.drop_eq_nil_of_le h, List.take_nil]

/-- Settles O34: a read of 0 bytes is full. -/
theorem zeroLengthPullKeepsTheSession : Obligations.ZeroLengthPullKeepsTheSession := by
  unfold Obligations.ZeroLengthPullKeepsTheSession
  intro rtype s hPhase
  have hReq : (joinLE16 0x00 0x00).toNat = 0 := rfl
  have hPos : s.rfPos + BitVec.ofNat 32 ([] : Bytes).length = s.rfPos := BitVec.add_zero s.rfPos
  rw [exec_rfPull_of_le hPhase (by rw [hReq]; exact Nat.zero_le _), hReq, memRead_zero, hPos, record_nil]
  rfl

/-- Settles O35: at the end of FILE a read of at least one byte gives none, and falls short. -/
theorem pullAtEndOfFileSendsTwoEmptyRecords : Obligations.PullAtEndOfFileSendsTwoEmptyRecords := by
  unfold Obligations.PullAtEndOfFileSendsTwoEmptyRecords
  intro rtype lo hi s hPhase hEnd hSome
  have hReq : 0 < (joinLE16 lo hi).toNat := by
    simp only [ne_eq, ← BitVec.toNat_inj] at hSome
    rw [joinLE16_toNat]
    simp at hSome
    omega
  have hRead := memRead_of_length_le hEnd.ge (joinLE16 lo hi).toNat
  have hPos : s.rfPos + BitVec.ofNat 32 ([] : Bytes).length = s.rfPos := BitVec.add_zero s.rfPos
  rw [exec_rfPull_of_lt hPhase (by rw [hRead]; exact hReq), hRead, hPos, record_nil]
  rfl

end Sys2Proof.Machine
end

section
/-! PROOFS. TwoRuns: what an operation does depends on the block and port FILE only, and on CRC only where the spec says
so; and which operations write CRC (`10_state.md` sections 1, 2 and 7). -/

namespace Sys2Proof.Machine

/-- Settles O14: the relay framer's operations leave CRC alone, and so does a side command that is not one of the
five. -/
theorem onlyFiveOperationsWriteCrc : Obligations.OnlyFiveOperationsWriteCrc := by
  unfold Obligations.OnlyFiveOperationsWriteCrc
  intro i s t hExec hOp
  obtain ⟨rfl, -⟩ | ⟨-, c, _, _, rfl, hCrc⟩ | ⟨-, tag, metadata, -, rfl⟩ | ⟨_, -, -, -, rfl⟩ | ⟨rx, -, -, -, rfl⟩ |
    ⟨-, -, rfl⟩ := exec_cases hExec
  · exact absurd (by decide) hOp
  · refine hCrc fun hWrites => hOp ?_
    simp only [List.mem_cons, List.not_mem_nil, or_false] at hWrites ⊢
    tauto
  · obtain ⟨hSame, -⟩ := startSession_unchanged tag metadata s
    exact hSame
  · rfl
  · obtain ⟨hSame, -⟩ := servePull_unchanged (requestedLength rx) { s with rxlog := s.rxlog ++ rx }
    exact hSame
  · rfl

/-! Side commands that do not read CRC -/

/-- The operation adds the same frames and answers in every state, and writes one value to CRC or leaves it. -/
def HasFixedEffect (i : Instr) : Prop :=
  ∃ (c : Option CrcWord) (frames : List Bytes) (answers : List Res), ∀ s : State,
    exec i s = .next { s with
      crc := c.getD s.crc, outlog := s.outlog ++ frames, reslog := s.reslog ++ answers }

theorem HasFixedEffect.of_out {i : Instr} {frame : Bytes} (h : ∀ s, exec i s = .next (s.out frame)) :
    HasFixedEffect i :=
  ⟨none, [frame], [], fun s => by simp [h, State.out_eq]⟩

theorem HasFixedEffect.of_respond {i : Instr} {v : Res} (h : ∀ s, exec i s = .next (s.respond v)) :
    HasFixedEffect i :=
  ⟨none, [], [v], fun s => by simp [h, State.respond_eq]⟩

theorem HasFixedEffect.of_setCrc_respond {i : Instr} {c : CrcWord} {v : Res}
    (h : ∀ s, exec i s = .next ((s.setCrc c).respond v)) : HasFixedEffect i :=
  ⟨some c, [], [v], fun s => by simp [h, State.respond_setCrc_eq]⟩

theorem hasFixedEffect_fwReport (n : ReportNumber) (last : Bool) (chunk : Bytes) :
    HasFixedEffect (.fwReport n last chunk) := by
  obtain hLong | hFits := lt_or_ge 40 chunk.length
  · exact .of_respond fun s => exec_fwReport_of_gt hLong n last s
  · exact ⟨some (crc16 (reportBody n last chunk)),
      [reportBody n last chunk ++ be16 (crc16 (reportBody n last chunk))], [], fun s => by
        simp [exec_fwReport_of_le hFits]⟩

theorem hasFixedEffect_recEncode (tag rtype : Byte) (payload : Bytes) :
    HasFixedEffect (.recEncode tag rtype payload) := by
  by_cases hTag : tagOk tag = false
  · exact .of_respond fun s => if_pos hTag
  by_cases hType : recordTypeOk rtype = false
  · exact .of_respond fun s => (if_neg hTag).trans (if_pos hType)
  by_cases hLong : payload.length > recLenMax
  · exact .of_respond fun s => (if_neg hTag).trans ((if_neg hType).trans (if_pos hLong))
  · exact .of_out fun s => (if_neg hTag).trans ((if_neg hType).trans (if_neg hLong))

theorem hasFixedEffect_reqDecode (rx : Bytes) : HasFixedEffect (.reqDecode rx) := by
  by_cases hLong : rx.length > pullReqLen
  · exact .of_respond fun s => if_pos hLong
  by_cases hShort : rx.length < pullReqLen
  · exact .of_respond fun s => (if_neg hLong).trans (if_pos hShort)
  · exact .of_respond fun s => (if_neg hLong).trans (if_neg hShort)

/-- Of the side commands only CRC.BYTE and CRC.READ read a register (R20). -/
theorem hasFixedEffect_of_isSideCommand {i : Instr} (hi : isSideCommand i = true)
    (hOp : i.op ∉ ([.crcByte, .crcRead] : List Op)) : HasFixedEffect i := by
  cases i
  case crcInit => exact .of_setCrc_respond exec_crcInit
  case crcByte d => exact absurd (by simp [Instr.op]) hOp
  case crcRead => exact absurd (by simp [Instr.op]) hOp
  case crcCompute data => exact .of_setCrc_respond (exec_crcCompute data)
  case envEncode payload seq flags0 flags1 => exact .of_out (exec_envEncode payload seq flags0 flags1)
  case fwMdget => exact .of_out exec_fwMdget
  case fwReqget vendor fw ck target => exact .of_out (exec_fwReqget vendor fw ck target)
  case fwUpdget vendor fw ck => exact .of_out (exec_fwUpdget vendor fw ck)
  case fwReport n last chunk => exact hasFixedEffect_fwReport n last chunk
  case fwActset vendor fw ck target hw => exact .of_out (exec_fwActset vendor fw ck target hw)
  case fwDecreq raw => exact .of_respond (exec_fwDecreq raw)
  case recEncode tag rtype payload => exact hasFixedEffect_recEncode tag rtype payload
  case reqDecode rx => exact hasFixedEffect_reqDecode rx
  all_goals cases hi

/-! Two runs of one operation -/

/-- Two states whose relay framer and port FILE agree. -/
def SameRelay (s t : State) : Prop :=
  s.rfState = t.rfState ∧ s.rfTag = t.rfTag ∧ s.rfPos = t.rfPos ∧ s.rfCause = t.rfCause ∧ s.fileOpen = t.fileOpen ∧
    s.file = t.file

theorem sameBlock_iff (s t : State) : SameBlock s t ↔ s.crc = t.crc ∧ SameRelay s t := Iff.rfl

/-- The runs from `s` to `s'` and from `t` to `t'` did the same: equal relay framers, the same outputs, and CRC written
with one value or left in both. -/
def SameRun (s s' t t' : State) : Prop :=
  SameRelay s' t' ∧
    (∃ frames sent answers rx, Extends s s' frames sent answers rx ∧ Extends t t' frames sent answers rx) ∧
      (t'.crc = s'.crc ∨ (s'.crc = s.crc ∧ t'.crc = t.crc))

theorem exists_sameRun_of_hasFixedEffect {i : Instr} (h : HasFixedEffect i) {s t s' : State} (hRelay : SameRelay s t)
    (hExec : exec i s = .next s') : ∃ t', exec i t = .next t' ∧ SameRun s s' t t' := by
  obtain ⟨c, frames, answers, hEffect⟩ := h
  cases (hEffect s).symm.trans hExec
  refine ⟨_, hEffect t, hRelay, ⟨frames, [], answers, [], ?_⟩, ?_⟩
  · simp [Extends]
  · cases c
    · exact .inr ⟨rfl, rfl⟩
    · exact .inl rfl

theorem exists_sameRun_of_crcByte {d : Byte} {s t s' : State} (hRelay : SameRelay s t) (hCrc : s.crc = t.crc)
    (hExec : exec (.crcByte d) s = .next s') : ∃ t', exec (.crcByte d) t = .next t' ∧ SameRun s s' t t' := by
  cases (exec_crcByte d s).symm.trans hExec
  refine ⟨_, exec_crcByte d t, hRelay, ⟨[], [], [.ok], [], ?_⟩, .inl ?_⟩
  · simp [Extends]
  · simp [hCrc]

theorem exists_sameRun_of_crcRead {s t s' : State} (hRelay : SameRelay s t) (hCrc : s.crc = t.crc)
    (hExec : exec .crcRead s = .next s') : ∃ t', exec .crcRead t = .next t' ∧ SameRun s s' t t' := by
  cases (exec_crcRead s).symm.trans hExec
  refine ⟨_, exec_crcRead t, hRelay, ⟨[], [], [.value16 s.crc], [], ?_⟩, .inl hCrc.symm⟩
  simp [Extends, hCrc]

/-- A start looks at RF.STATE and `FileOpen()` only (R123). -/
theorem SameRun.startSession {s t : State} (hRelay : SameRelay s t) (tag : Byte) (metadata : Bytes) :
    SameRun s (startSession tag metadata s) t (startSession tag metadata t) := by
  obtain ⟨hState, hTag, hPos, hCause, hOpen, hFile⟩ := hRelay
  obtain ⟨hPhase, e⟩ | ⟨hPhase, hFail, e⟩ | ⟨hPhase, hOk, e⟩ := startSession_cases tag metadata s
  · rw [e, startSession_of_ne_idle (hState ▸ hPhase)]
    exact ⟨⟨hState, hTag, hPos, hCause, hOpen, hFile⟩,
      ⟨[], [], [.refused .sessionNotIdle], [], by simp [Extends]⟩, .inr ⟨rfl, rfl⟩⟩
  · rw [e, startSession_of_fileOpen_eq_false (hState ▸ hPhase) (hOpen ▸ hFail)]
    exact ⟨⟨hState, hTag, hPos, rfl, hOpen, hFile⟩,
      ⟨[], [], [.err .fileOpenFailed 0], [], by simp [Extends]⟩, .inr ⟨rfl, rfl⟩⟩
  · rw [e, startSession_of_fileOpen (hState ▸ hPhase) (hOpen ▸ hOk)]
    exact ⟨⟨rfl, rfl, rfl, rfl, hOpen, hFile⟩, ⟨[], record tag rtHeader metadata, [.ok], [], by simp [Extends]⟩,
      .inr ⟨rfl, rfl⟩⟩

/-- The service of a request looks at RF.TAG, RF.POS and FILE only (R128). -/
theorem SameRun.servePull {s t : State} (hRelay : SameRelay s t) (req : Word16) (rx : Bytes) :
    SameRun s (servePull req { s with rxlog := s.rxlog ++ rx })
      t (servePull req { t with rxlog := t.rxlog ++ rx }) := by
  obtain ⟨hState, hTag, hPos, hCause, hOpen, hFile⟩ := hRelay
  obtain ⟨hFull, e⟩ | ⟨hShort, e⟩ := servePull_cases req { s with rxlog := s.rxlog ++ rx }
  · rw [e, servePull_of_le (by rw [← hPos, ← hFile]; exact hFull)]
    exact ⟨⟨hState, hTag, by simp only [hPos, hFile], hCause, hOpen, hFile⟩,
      ⟨[], record s.rfTag rtData (memRead s.file s.rfPos.toNat req.toNat), [], rx,
        by simp [Extends, hTag, hPos, hFile]⟩, .inr ⟨rfl, rfl⟩⟩
  · rw [e, servePull_of_lt (by rw [← hPos, ← hFile]; exact hShort)]
    exact ⟨⟨rfl, hTag, by simp only [hPos, hFile], hCause, hOpen, hFile⟩,
      ⟨[], record s.rfTag rtData (memRead s.file s.rfPos.toNat req.toNat) ++ record s.rfTag rtData [], [], rx,
        by simp [Extends, hTag, hPos, hFile]⟩, .inr ⟨rfl, rfl⟩⟩

/-- The entry to FAILED looks at no register but RF.STATE (R130, R131). -/
theorem SameRun.failed {s t : State} (hRelay : SameRelay s t) (cause : Cause) (rx : Bytes) :
    SameRun s { s with rxlog := s.rxlog ++ rx, rfCause := cause, rfState := .failed }
      t { t with rxlog := t.rxlog ++ rx, rfCause := cause, rfState := .failed } := by
  obtain ⟨-, hTag, hPos, -, hOpen, hFile⟩ := hRelay
  exact ⟨⟨rfl, hTag, hPos, rfl, hOpen, hFile⟩, ⟨[], [], [], rx, by simp [Extends]⟩, .inr ⟨rfl, rfl⟩⟩

/-- A side command does the same from two states, if it reads no CRC or finds the same in both. -/
theorem exists_sameRun_of_side {i : Instr} (hi : isSideCommand i = true) {s t s' : State} (hRelay : SameRelay s t)
    (hCrc : s.crc = t.crc ∨ i.op ∉ ([.crcByte, .crcRead] : List Op)) (hExec : exec i s = .next s') :
    ∃ t', exec i t = .next t' ∧ SameRun s s' t t' := by
  by_cases hOp : i.op ∈ ([.crcByte, .crcRead] : List Op)
  · have hSame : s.crc = t.crc := hCrc.resolve_right (not_not.2 hOp)
    cases i
    case crcByte d => exact exists_sameRun_of_crcByte hRelay hSame hExec
    case crcRead => exact exists_sameRun_of_crcRead hRelay hSame hExec
    all_goals simp [Instr.op] at hOp
  · exact exists_sameRun_of_hasFixedEffect (hasFixedEffect_of_isSideCommand hi hOp) hRelay hExec

/-- Every operation but SYS.RESET does the same from two states that agree in what it reads. -/
theorem exists_sameRun {i : Instr} (hReset : i ≠ .sysReset) {s t s' : State} (hRelay : SameRelay s t)
    (hCrc : s.crc = t.crc ∨ i.op ∉ ([.crcByte, .crcRead] : List Op)) (hExec : exec i s = .next s') :
    ∃ t', exec i t = .next t' ∧ SameRun s s' t t' := by
  obtain ⟨hState, -⟩ := id hRelay
  obtain ⟨rfl, -⟩ | ⟨hi, -⟩ | ⟨-, tag, metadata, hStart, rfl⟩ | ⟨rx, rfl, hPhase, hShort, rfl⟩ |
    ⟨rx, rfl, hPhase, hWhole, rfl⟩ | ⟨rfl, hPhase, rfl⟩ := exec_cases hExec
  · exact absurd rfl hReset
  · exact exists_sameRun_of_side hi hRelay hCrc hExec
  · exact ⟨_, hStart.exec_eq t, .startSession hRelay tag metadata⟩
  · have hPhase' : t.rfState = .awaitReq := hState ▸ hPhase
    obtain ⟨-, e⟩ | ⟨-, -, e⟩ | ⟨-, hWhole, -⟩ := execRfPull_cases rx t
    · exact absurd (e.symm.trans (exec_rfPull_of_length_lt hPhase' hShort)) nofun
    · exact ⟨_, e, .failed hRelay _ rx⟩
    · omega
  · exact ⟨_, exec_rfPull_of_length_ge (hState ▸ hPhase) hWhole, .servePull hRelay _ rx⟩
  · have hRun := SameRun.failed hRelay .connClosed []
    simp only [List.append_nil] at hRun
    exact ⟨_, exec_rfAbort_of_awaitReq (hState ▸ hPhase), hRun⟩

/-- Settles O43: two runs do the same, CRC too, since it was the same before; a reset writes the same registers. -/
theorem historiesOnlyGrowAndAreNeverRead : Obligations.HistoriesOnlyGrowAndAreNeverRead := by
  unfold Obligations.HistoriesOnlyGrowAndAreNeverRead
  intro i s t s' hBlock hExec
  obtain ⟨hCrc, hRelay⟩ := (sameBlock_iff s t).1 hBlock
  by_cases hReset : i = .sysReset
  · subst hReset
    obtain ⟨-, -, -, -, hOpen, hFile⟩ := hRelay
    cases (exec_sysReset s).symm.trans hExec
    exact ⟨_, exec_sysReset t, ⟨rfl, rfl, rfl, rfl, rfl, hOpen, hFile⟩, fun h => absurd rfl h⟩
  · obtain ⟨t', ht, hRelay', hExtends, hCrc'⟩ := exists_sameRun hReset hRelay (.inl hCrc) hExec
    refine ⟨t', ht, (sameBlock_iff s' t').2 ⟨?_, hRelay'⟩, fun _ => hExtends⟩
    obtain hSame | ⟨hs, ht'⟩ := hCrc'
    · exact hSame.symm
    · rw [hs, ht', hCrc]

/-- Runs that did the same from states with equal histories and inputs end in states that differ in CRC at most. -/
theorem SameRun.eq_of_histories {s s' t t' : State} (h : SameRun s s' t t')
    (hHistories : s.outlog = t.outlog ∧ s.txlog = t.txlog ∧ s.reslog = t.reslog ∧ s.rxlog = t.rxlog)
    (hInputs : s'.inputs = t'.inputs) : { t' with crc := s'.crc } = s' := by
  obtain ⟨⟨hState, hTag, hPos, hCause, hOpen, hFile⟩, ⟨frames, sent, answers, rx, hs, ht⟩, -⟩ := h
  obtain ⟨hOut, hTx, hRes, hRx⟩ := hHistories
  obtain ⟨hOut', hTx', hRes', hRx'⟩ := hs
  obtain ⟨hOut'', hTx'', hRes'', hRx''⟩ := ht
  cases s'
  cases t'
  simp_all

/-- Settles O15: two runs from states that differ in CRC do the same, and a reset overwrites CRC. -/
theorem onlyByteAndReadReadCrc : Obligations.OnlyByteAndReadReadCrc := by
  unfold Obligations.OnlyByteAndReadReadCrc
  intro i s t v hExec hOp
  by_cases hReset : i = .sysReset
  · subst hReset
    cases (exec_sysReset s).symm.trans hExec
    exact ⟨_, exec_sysReset _, rfl, .inl rfl⟩
  · obtain ⟨t', ht, hRun⟩ :=
      exists_sameRun (s := s) (t := { s with crc := v }) hReset ⟨rfl, rfl, rfl, rfl, rfl, rfl⟩ (.inr hOp) hExec
    have hInputs : t.inputs = t'.inputs := by
      obtain ⟨-, -, hs⟩ := noOperationWritesTheEnvironment i s t hExec
      obtain ⟨-, -, hv⟩ := noOperationWritesTheEnvironment i _ t' ht
      exact hs.trans hv.symm
    obtain ⟨-, -, hCrc⟩ := id hRun
    exact ⟨t', ht, hRun.eq_of_histories ⟨rfl, rfl, rfl, rfl⟩ hInputs, hCrc.imp_right fun h => h.2⟩

end Sys2Proof.Machine
end

section
/-! PROOFS. Refusals: which operation is refused, for which reason, and that nothing but RES changes
(`60_exceptions.md` R165, R168). -/

namespace Sys2Proof.Machine

/-- Under its condition an operation answers the refusal and nothing else: R106, R121, R122 and R123, clause by
clause. -/
theorem exec_of_refusalCondition {r : Reason} {i : Instr} {s : State} (h : RefusalCondition r i s) :
    exec i s = .next { s with reslog := s.reslog ++ [.refused r] } := by
  cases r with
  | unknownOp => exact h.elim
  | chunkTooLong =>
    obtain ⟨n, last, chunk, rfl, hLong⟩ := h
    exact exec_fwReport_of_gt hLong n last s
  | badTag =>
    obtain ⟨tag, rtype, payload, rfl, hTag⟩ := h
    obtain ⟨hBadTag, -⟩ := recordEncodingChecksThenFrames tag rtype payload s
    exact hBadTag hTag
  | badRecordType =>
    obtain ⟨tag, rtype, payload, rfl, hTag, hType⟩ := h
    obtain ⟨-, hBadType, -⟩ := recordEncodingChecksThenFrames tag rtype payload s
    exact hBadType hTag hType
  | payloadTooLong =>
    obtain ⟨tag, rtype, payload, rfl, hTag, hType, hLong⟩ := h
    obtain ⟨-, -, hTooLong, -⟩ := recordEncodingChecksThenFrames tag rtype payload s
    exact hTooLong hTag hType hLong
  | badRequestLength =>
    obtain ⟨rx, rfl, hLong⟩ := h
    obtain ⟨hBadLength, -⟩ := pullRequestDecodingNeedsThreeBytes rx s
    exact hBadLength hLong
  | sessionNotIdle =>
    obtain ⟨hi, hPhase⟩ := h
    exact exec_start_of_ne_idle hi hPhase

theorem not_refusalCondition_rfPull (r : Reason) (rx : Bytes) (s : State) : ¬ RefusalCondition r (.rfPull rx) s := by
  cases r <;> simp [RefusalCondition, isStart, Instr.op]

theorem not_refusalCondition_rfAbort (r : Reason) (s : State) : ¬ RefusalCondition r .rfAbort s := by
  cases r <;> simp [RefusalCondition, isStart, Instr.op]

/-! What each command that can be refused answers -/

/-- The operation that led from `s` to `t` answered `Refused(r)`. -/
def Refused (r : Reason) (s t : State) : Prop :=
  t.reslog = s.reslog ++ [.refused r]

theorem not_refused_of_reslog_eq {r : Reason} {s t : State} (h : t.reslog = s.reslog) : ¬ Refused r s t := by
  simp [Refused, h]

/-- The answer is the last one on RES. -/
theorem eq_refused_of_answer {r : Reason} {s t : State} {v : Res} (h : Refused r s t)
    (hAnswer : t.reslog = s.reslog ++ [v]) : v = .refused r := by
  simpa using hAnswer.symm.trans h

theorem decodeChunkRequest_ne_refused (raw : Bytes) (r : Reason) : decodeChunkRequest raw ≠ .refused r := by
  obtain hShort | hLong := lt_or_ge raw.length 5
  · rw [decodeChunkRequest_of_length_lt hShort]
    exact nofun
  · obtain ⟨before, cls, cmd, size, idHi, idLo, rfl⟩ := exists_append_trailer hLong
    rw [decodeChunkRequest_append]
    split_ifs <;> exact nofun

theorem refusalCondition_of_fwReport {r : Reason} {n : ReportNumber} {last : Bool} {chunk : Bytes} {s t : State}
    (hExec : exec (.fwReport n last chunk) s = .next t) (h : Refused r s t) :
    RefusalCondition r (.fwReport n last chunk) s := by
  obtain ⟨hLong, e⟩ | ⟨-, e⟩ := execFwReport_cases n last chunk s <;> cases e.symm.trans hExec
  · cases eq_refused_of_answer h rfl
    exact ⟨n, last, chunk, rfl, hLong⟩
  · exact absurd h (not_refused_of_reslog_eq rfl)

theorem refusalCondition_of_recEncode {r : Reason} {tag rtype : Byte} {payload : Bytes} {s t : State}
    (hExec : exec (.recEncode tag rtype payload) s = .next t) (h : Refused r s t) :
    RefusalCondition r (.recEncode tag rtype payload) s := by
  obtain ⟨hTag, e⟩ | ⟨hTag, hType, e⟩ | ⟨hTag, hType, hLong, e⟩ | ⟨-, -, -, e⟩ :=
    execRecEncode_cases tag rtype payload s <;> cases e.symm.trans hExec
  · cases eq_refused_of_answer h rfl
    exact ⟨tag, rtype, payload, rfl, fun hMem => by simp [(tagOk_iff tag).2 hMem] at hTag⟩
  · cases eq_refused_of_answer h rfl
    exact ⟨tag, rtype, payload, rfl, (tagOk_iff tag).1 hTag, fun hMem => by
      simp [(recordTypeOk_iff rtype).2 hMem] at hType⟩
  · cases eq_refused_of_answer h rfl
    exact ⟨tag, rtype, payload, rfl, (tagOk_iff tag).1 hTag, (recordTypeOk_iff rtype).1 hType, hLong⟩
  · exact absurd h (not_refused_of_reslog_eq rfl)

theorem refusalCondition_of_reqDecode {r : Reason} {rx : Bytes} {s t : State}
    (hExec : exec (.reqDecode rx) s = .next t) (h : Refused r s t) : RefusalCondition r (.reqDecode rx) s := by
  obtain ⟨hLong, e⟩ | ⟨-, e⟩ | ⟨_, _, _, -, e⟩ := execReqDecode_cases rx s <;> cases e.symm.trans hExec <;>
    cases eq_refused_of_answer h rfl
  exact ⟨rx, rfl, hLong⟩

theorem refusalCondition_of_start {r : Reason} {i : Instr} {s : State} (hi : isStart i = true) {tag : Byte}
    {metadata : Bytes} (h : Refused r s (startSession tag metadata s)) : RefusalCondition r i s := by
  obtain ⟨hPhase, e⟩ | ⟨-, -, e⟩ | ⟨-, -, e⟩ := startSession_cases tag metadata s <;> rw [e] at h <;>
    cases eq_refused_of_answer h rfl
  exact ⟨hi, hPhase⟩

/-- Of the side commands, FW.REPORT, REC.ENCODE and REQ.DECODE are refused, each under its condition. -/
theorem refusalCondition_of_side {r : Reason} {i : Instr} (hi : isSideCommand i = true) {s t : State}
    (hExec : exec i s = .next t) (h : Refused r s t) : RefusalCondition r i s := by
  cases i
  case fwReport n last chunk => exact refusalCondition_of_fwReport hExec h
  case recEncode tag rtype payload => exact refusalCondition_of_recEncode hExec h
  case reqDecode rx => exact refusalCondition_of_reqDecode hExec h
  case fwDecreq raw =>
    cases hExec
    exact absurd (eq_refused_of_answer h rfl) (decodeChunkRequest_ne_refused raw r)
  case crcInit | crcByte | crcRead | crcCompute =>
    cases hExec
    cases eq_refused_of_answer h rfl
  case envEncode | fwMdget | fwReqget | fwUpdget | fwActset =>
    cases hExec
    exact absurd h (not_refused_of_reslog_eq rfl)
  all_goals cases hi

/-- An operation that answers a refusal met its condition. -/
theorem refusalCondition_of_refused {r : Reason} {i : Instr} {s t : State} (hExec : exec i s = .next t)
    (h : Refused r s t) : RefusalCondition r i s := by
  obtain ⟨-, rfl⟩ | ⟨hi, -⟩ | ⟨hi, tag, metadata, -, rfl⟩ | ⟨_, -, -, -, rfl⟩ | ⟨rx, -, -, -, rfl⟩ | ⟨-, -, rfl⟩ :=
    exec_cases hExec
  case inl => exact absurd (congrArg List.getLast? h) (by simp)
  case inr.inl => exact refusalCondition_of_side hi hExec h
  case inr.inr.inl => exact refusalCondition_of_start hi h
  case inr.inr.inr.inr.inl =>
    obtain ⟨-, -, -, -, -, -, hRes, -⟩ := servePull_unchanged (requestedLength rx) { s with rxlog := s.rxlog ++ rx }
    exact absurd h (not_refused_of_reslog_eq hRes)
  all_goals exact absurd h (not_refused_of_reslog_eq rfl)

/-- Settles O42: the condition gives the refusal, and the refusal gives the condition back. -/
theorem refusalsChangeNothing : Obligations.RefusalsChangeNothing := by
  unfold Obligations.RefusalsChangeNothing
  intro i s r
  refine ⟨exec_of_refusalCondition, fun t hExec hRefused => ?_, ?pull, ?abort⟩
  · have hCondition := refusalCondition_of_refused hExec hRefused
    cases (exec_of_refusalCondition hCondition).symm.trans hExec
    exact ⟨hCondition, rfl⟩
  case pull =>
    rintro rx rfl
    exact not_refusalCondition_rfPull r rx s
  case abort =>
    rintro rfl
    exact not_refusalCondition_rfAbort r s

end Sys2Proof.Machine
end

section
/-! PROOFS. Steps: what a step does with each kind of input, and with none (`20_memory.md` R45, R50, `30_encoding.md`
R78, `42_relay_framer.md` R132). -/

namespace Sys2Proof.Machine

theorem step_of_op_error {s : State} {packet : Bytes} {rest : List Input} {e : DecodeError}
    (hInput : s.inputs = .op packet :: rest) (hDecode : decode packet = .error e) :
    step s = undecodable e { s with inputs := rest } := by
  rw [step, hInput]
  simp only [hDecode]
  rfl

theorem step_of_fileReady {s : State} {contents : Bytes} {rest : List Input}
    (hInput : s.inputs = .fileReady contents :: rest) : step s = openFile contents { s with inputs := rest } := by
  rw [step, hInput]
  rfl

theorem step_of_fileUnavailable {s : State} {rest : List Input} (hInput : s.inputs = .fileUnavailable :: rest) :
    step s = closeFile { s with inputs := rest } := by
  rw [step, hInput]
  rfl

theorem step_of_nil {s : State} (hInput : s.inputs = []) : step s = noInput s := by
  rw [step, hInput]

theorem openFile_of_le {s : State} (hPhase : s.rfState ≠ .awaitReq) {contents : Bytes}
    (hLength : contents.length ≤ 4294967295) :
    openFile contents s = .next { s with fileOpen := true, file := contents } :=
  (if_neg hPhase).trans (if_neg (Nat.not_lt.2 hLength))

theorem openFile_of_awaitReq {s : State} (hPhase : s.rfState = .awaitReq) (contents : Bytes) :
    openFile contents s = .fault .fileChangedInSession :=
  if_pos hPhase

theorem closeFile_of_ne_awaitReq {s : State} (hPhase : s.rfState ≠ .awaitReq) :
    closeFile s = .next { s with fileOpen := false } :=
  if_neg hPhase

theorem closeFile_of_awaitReq {s : State} (hPhase : s.rfState = .awaitReq) :
    closeFile s = .fault .fileChangedInSession :=
  if_pos hPhase

/-- Settles O47: the 19 values are the codes of the rows. -/
theorem unassignedOpIsRefused : Obligations.UnassignedOpIsRefused := by
  unfold Obligations.UnassignedOpIsRefused
  intro s b args rest hInput hOp
  rw [step_of_op_error hInput (decode_of_unassigned hOp args)]
  rfl

/-- Settles O48: by the phase. -/
theorem nothingPresentedIsAStallOrTheEnd : Obligations.NothingPresentedIsAStallOrTheEnd := by
  unfold Obligations.NothingPresentedIsAStallOrTheEnd
  intro s hInput
  rw [step_of_nil hInput]
  exact ⟨fun hPhase => if_pos hPhase, fun hPhase => if_neg hPhase⟩

/-- Settles O49: the opening and the closing of the file, outside a session and in one. -/
theorem fileChangesOnlyOutsideASession : Obligations.FileChangesOnlyOutsideASession := by
  unfold Obligations.FileChangesOnlyOutsideASession
  intro s contents rest
  refine ⟨fun hInput hPhase hLength => ?opened, fun hInput hPhase => ?closed, fun hInput hPhase => ?inSession⟩
  case opened =>
    rw [step_of_fileReady hInput]
    exact openFile_of_le (by exact hPhase) hLength
  case closed =>
    rw [step_of_fileUnavailable hInput]
    exact closeFile_of_ne_awaitReq hPhase
  case inSession =>
    obtain hInput | hInput := hInput
    · rw [step_of_fileReady hInput]
      exact openFile_of_awaitReq (by exact hPhase) contents
    · rw [step_of_fileUnavailable hInput]
      exact closeFile_of_awaitReq hPhase

end Sys2Proof.Machine
end

section
/-! PROOFS. Peer: what a peer reads from a session's stream (`42_relay_framer.md` R137). -/

namespace Sys2Proof.Machine

/-- The bytes of a record on the stream (R69). -/
def RelayRecord.bytes (r : RelayRecord) : Bytes :=
  record r.tag r.rtype r.payload

/-- Reading takes one record off the front: its length field is exact (R137). -/
theorem readRecord_bytes_append {r : RelayRecord} (hLength : r.payload.length ≤ 65535) (rest : Bytes) :
    readRecord (r.bytes ++ rest) = some (r, rest) := by
  have hField : (BitVec.ofNat 16 r.payload.length).toNat = r.payload.length := by
    rw [BitVec.toNat_ofNat]
    omega
  have hEnough : ¬ (r.payload ++ rest).length < r.payload.length := by
    rw [List.length_append]
    omega
  rw [RelayRecord.bytes, record_eq]
  simp only [List.cons_append, readRecord, joinLE16_lo8_hi8, hField, if_neg hEnough, List.take_left, List.drop_left]

theorem readRecords_succ {stream rest : Bytes} {r : RelayRecord} (h : readRecord stream = some (r, rest))
    (fuel : Nat) : readRecords (fuel + 1) stream = (readRecords fuel rest).map (r :: ·) := by
  cases stream with
  | nil => cases h
  | cons b stream => simp only [readRecords, h]

theorem readRecords_flatten (rs : List RelayRecord) (hLength : ∀ r ∈ rs, r.payload.length ≤ 65535) :
    ∀ fuel, rs.length ≤ fuel → readRecords fuel (rs.map RelayRecord.bytes).flatten = some rs := by
  induction rs with
  | nil =>
    intro fuel _
    cases fuel <;> rfl
  | cons r rs ih =>
    intro fuel hFuel
    obtain ⟨fuel, rfl⟩ := Nat.exists_eq_add_one_of_ne_zero (Nat.ne_zero_of_lt hFuel)
    have hRest := ih (fun q hq => hLength q (List.mem_cons_of_mem r hq)) fuel (Nat.le_of_succ_le_succ hFuel)
    rw [List.map_cons, List.flatten_cons,
      readRecords_succ (readRecord_bytes_append (hLength r List.mem_cons_self) _), hRest]
    rfl

/-- Each record takes at least a byte, so the stream's length is fuel enough. -/
theorem length_le_length_flatten (rs : List RelayRecord) :
    rs.length ≤ (rs.map RelayRecord.bytes).flatten.length := by
  induction rs with
  | nil => exact Nat.zero_le _
  | cons r rs ih =>
    rw [List.map_cons, List.flatten_cons, List.length_append, RelayRecord.bytes, record_length, List.length_cons]
    omega

theorem peerRecords_flatten {rs : List RelayRecord} (hLength : ∀ r ∈ rs, r.payload.length ≤ 65535) :
    peerRecords (rs.map RelayRecord.bytes).flatten = some rs :=
  readRecords_flatten rs hLength _ (length_le_length_flatten rs)

theorem LegalMetadata.length_le {tag : Byte} {metadata : Bytes} (h : LegalMetadata tag metadata) :
    metadata.length ≤ 65535 := by
  obtain ⟨-, rfl⟩ | ⟨-, hLength⟩ | ⟨-, hLength⟩ := h
  · exact Nat.zero_le _
  · omega
  · omega

/-- Settles O53: the stream is the bytes of the header record and of one data record for each chunk. -/
theorem peerRecoversTheRecords : Obligations.PeerRecoversTheRecords := by
  unfold Obligations.PeerRecoversTheRecords
  intro tag metadata chunks legal hChunks
  have hStream : sessionStream tag metadata chunks =
      ((RelayRecord.mk tag 0x01 metadata :: chunks.map (RelayRecord.mk tag 0x00)).map RelayRecord.bytes).flatten := by
    rw [List.map_cons, List.flatten_cons, List.map_map]
    rfl
  rw [hStream]
  refine peerRecords_flatten fun r hr => ?_
  obtain rfl | hr := List.mem_cons.1 hr
  · exact legal.length_le
  · obtain ⟨chunk, hChunk, rfl⟩ := List.mem_map.1 hr
    exact hChunks chunk hChunk

end Sys2Proof.Machine
end

section
/-! PROOFS. Registry: at most one entry an address, and what registering and unregistering change
(`43_host_sessions.md` R150 to R156). -/

namespace Sys2Proof.Machine

variable {Address Handle : Type}

theorem Registry.wf_of_sublist {q r : Registry Address Handle} (h : List.Sublist q r) (w : r.wf) : q.wf :=
  w.sublist (h.map _)

variable [DecidableEq Address]

theorem Registry.mem_unregister {r : Registry Address Handle} {a : Address} {e : ClientSession Address Handle} :
    e ∈ r.unregister a ↔ e ∈ r ∧ e.peerAddress ≠ a := by
  simp [Registry.unregister]

theorem Registry.unregister_sublist (r : Registry Address Handle) (a : Address) :
    List.Sublist (r.unregister a) r :=
  List.filter_sublist

theorem Registry.notMem_addresses_unregister (r : Registry Address Handle) (a : Address) :
    a ∉ (r.unregister a).addresses := by
  intro h
  obtain ⟨e, he, rfl⟩ := List.mem_map.1 h
  exact (Registry.mem_unregister.1 he).2 rfl

theorem Registry.wf_unregister {r : Registry Address Handle} (w : r.wf) (a : Address) : (r.unregister a).wf :=
  Registry.wf_of_sublist (r.unregister_sublist a) w

theorem Registry.wf_register {r : Registry Address Handle} (w : r.wf) (a : Address) (h : Handle) :
    (r.register a h).wf :=
  List.nodup_cons.2 ⟨r.notMem_addresses_unregister a, Registry.wf_unregister w a⟩

theorem Registry.resolve_register_self (r : Registry Address Handle) (a : Address) (h : Handle) :
    (r.register a h).resolve a = some h := by
  simp [Registry.resolve, Registry.register]

theorem Registry.resolve_unregister_of_ne (r : Registry Address Handle) {a b : Address} (hNe : b ≠ a) :
    (r.unregister a).resolve b = r.resolve b := by
  have hSame : (fun e : ClientSession Address Handle =>
      decide (decide (e.peerAddress ≠ a) = true ∧ decide (e.peerAddress = b) = true)) =
        fun e => decide (e.peerAddress = b) := by
    funext e
    by_cases he : e.peerAddress = b
    · simp [he, hNe]
    · simp [he]
  rw [Registry.resolve, Registry.unregister, List.find?_filter, hSame]
  rfl

theorem Registry.resolve_register_of_ne (r : Registry Address Handle) {a b : Address} (hNe : b ≠ a) (h : Handle) :
    (r.register a h).resolve b = r.resolve b := by
  rw [← r.resolve_unregister_of_ne hNe, Registry.resolve, Registry.register,
    List.find?_cons_of_neg (by simpa using hNe.symm)]
  rfl

/-- With at most one entry an address, an entry is what its address resolves to. -/
theorem Registry.resolve_of_mem {r : Registry Address Handle} (w : r.wf) {e : ClientSession Address Handle}
    (he : e ∈ r) : r.resolve e.peerAddress = some e.connectionHandle := by
  obtain ⟨q, hq⟩ : ∃ q, r.find? (fun q => decide (q.peerAddress = e.peerAddress)) = some q := by
    rw [← Option.isSome_iff_exists, List.find?_isSome]
    exact ⟨e, he, decide_eq_true rfl⟩
  have hAddress : q.peerAddress = e.peerAddress := by simpa using List.find?_some hq
  have hSame : q = e := List.inj_on_of_nodup_map w (List.mem_of_find?_eq_some hq) he hAddress
  rw [Registry.resolve, hq, hSame]
  rfl

/-- Settles O59: register is unregister and a new first entry; unregister is a filter. -/
theorem registryKeepsOneEntryPerAddress : Obligations.RegistryKeepsOneEntryPerAddress := by
  unfold Obligations.RegistryKeepsOneEntryPerAddress
  intro r a b h w
  exact ⟨Registry.wf_register w a h, Registry.wf_unregister w a, Registry.notMem_addresses_unregister _ a,
    Registry.resolve_register_self r a h, fun hNe =>
      ⟨Registry.resolve_register_of_ne r hNe.symm h, Registry.resolve_unregister_of_ne r hNe.symm⟩⟩

end Sys2Proof.Machine
end

section
/-! PROOFS. Connections: what each event does to the registry and to the blocks (`43_host_sessions.md` sections 3
and 4, `60_exceptions.md` R174; log 21). -/

namespace Sys2Proof.Machine

variable {Address Handle : Type}

/-! Well-formedness -/

/-- An entry's connection is up and bound. -/
def Connections.IsUp (c : Connections Address Handle) (e : ClientSession Address Handle) : Prop :=
  ∃ b ∈ c.bindings, b.handle = e.connectionHandle ∧ b.connected = true

theorem Connections.wf_iff (c : Connections Address Handle) :
    c.wf ↔ c.registry.wf ∧ (c.bindings.map Binding.handle).Nodup ∧
      (c.registry.map ClientSession.connectionHandle).Nodup ∧ ∀ e ∈ c.registry, c.IsUp e := Iff.rfl

variable [DecidableEq Handle]

theorem Connections.mem_of_bindingOf {c : Connections Address Handle} {handle : Handle} {b : Binding Handle}
    (h : c.bindingOf handle = some b) : b ∈ c.bindings :=
  List.mem_of_find?_eq_some h

/-- With one block a stream, the binding of a handle is the only one. -/
theorem Connections.eq_of_bindingOf {c : Connections Address Handle} (hNodup : (c.bindings.map Binding.handle).Nodup)
    {handle : Handle} {b x : Binding Handle} (hb : c.bindingOf handle = some b) (hx : x ∈ c.bindings)
    (hHandle : x.handle = handle) : x = b :=
  List.inj_on_of_nodup_map hNodup hx (mem_of_bindingOf hb) (hHandle.trans (handle_of_bindingOf hb).symm)

theorem Connections.mem_setBinding {c : Connections Address Handle} {x b : Binding Handle} (hx : x ∈ c.bindings) :
    (if x.handle = b.handle then b else x) ∈ (c.setBinding b).bindings :=
  List.mem_map.2 ⟨x, hx, rfl⟩

/-- Writing a binding of another connection keeps an entry's connection up. -/
theorem Connections.IsUp.setBinding_of_ne {c : Connections Address Handle} {e : ClientSession Address Handle}
    (h : c.IsUp e) {b : Binding Handle} (hNe : e.connectionHandle ≠ b.handle) : (c.setBinding b).IsUp e := by
  obtain ⟨x, hx, hHandle, hUp⟩ := h
  have hMem := mem_setBinding (b := b) hx
  rw [if_neg (hHandle ▸ hNe)] at hMem
  exact ⟨x, hMem, hHandle, hUp⟩

/-! One step of a block -/

/-- One step of the block of a handle, from `s` to `t`, and nothing else. -/
def Connections.Served (c d : Connections Address Handle) (handle : Handle) (s t : State) : Prop :=
  ∃ b, c.bindingOf handle = some b ∧ b.block = s ∧ d = c.setBinding { b with block := t }

section
variable {c d : Connections Address Handle} {handle : Handle} {s t : State}

theorem Connections.Served.registry_eq (h : c.Served d handle s t) : d.registry = c.registry := by
  obtain ⟨b, -, -, rfl⟩ := h
  rfl

theorem Connections.Served.blockOf_before (h : c.Served d handle s t) : c.blockOf handle = some s := by
  obtain ⟨b, hb, rfl, -⟩ := h
  rw [Connections.blockOf, hb]
  rfl

theorem Connections.Served.blockOf_after (h : c.Served d handle s t) : d.blockOf handle = some t := by
  obtain ⟨b, hb, -, rfl⟩ := h
  have hHandle := handle_of_bindingOf hb
  rw [blockOf_setBinding hb { b with block := t } hHandle, if_pos rfl]

theorem Connections.Served.blockOf_of_ne (h : c.Served d handle s t) {other : Handle} (hNe : other ≠ handle) :
    d.blockOf other = c.blockOf other := by
  obtain ⟨b, hb, -, rfl⟩ := h
  have hHandle := handle_of_bindingOf hb
  rw [blockOf_setBinding hb { b with block := t } hHandle, if_neg hNe]

theorem Connections.Served.wf (h : c.Served d handle s t) (w : c.wf) : d.wf := by
  obtain ⟨hRegistry, hNodup, hHandles, hUp⟩ := (wf_iff c).1 w
  obtain ⟨b, hb, -, rfl⟩ := h
  refine (wf_iff _).2 ⟨hRegistry, by rwa [setBinding_handles], hHandles, fun e he => ?_⟩
  by_cases hSame : e.connectionHandle = b.handle
  · obtain ⟨x, hx, hHandle, hConnected⟩ := hUp e he
    obtain rfl := eq_of_bindingOf hNodup hb hx (by rw [hHandle, hSame, handle_of_bindingOf hb])
    have hMem := mem_setBinding (b := { x with block := t }) hx
    rw [if_pos rfl] at hMem
    exact ⟨_, hMem, hHandle, hConnected⟩
  · exact (hUp e he).setBinding_of_ne hSame

end

theorem served_of_serve {c d : Connections Address Handle} {handle : Handle} {b : Binding Handle}
    (hb : c.bindingOf handle = some b) {o : Host.Outcome State Fault Refusal} (h : c.serve b o = some d) :
    ∃ t, o = .next t ∧ c.Served d handle b.block t := by
  obtain ⟨t, ho, hd⟩ := Connections.serve_eq_some h
  exact ⟨t, ho, b, hb, rfl, hd⟩

/-- An operation that happens at a handle's block is one step of that block, by `exec`. -/
theorem served_of_operateBlock {c d : Connections Address Handle} {handle : Handle} {i : Instr}
    (h : operateBlock handle i c = some d) : ∃ s t, exec i s = .next t ∧ c.Served d handle s t := by
  unfold operateBlock at h
  split at h
  · cases h
  · split_ifs at h
    obtain ⟨t, hExec, hServed⟩ := served_of_serve ‹_› h
    exact ⟨_, t, hExec, hServed⟩

/-- The opening of a source file sets port FILE of the block, outside a session. -/
theorem served_of_openFileAt {c d : Connections Address Handle} {handle : Handle} {contents : Bytes}
    (h : openFileAt handle contents c = some d) :
    ∃ s, s.rfState ≠ .awaitReq ∧ c.Served d handle s { s with fileOpen := true, file := contents } := by
  unfold openFileAt at h
  split at h
  · cases h
  · rename_i b hb
    obtain ⟨t, hOpen, hServed⟩ := served_of_serve hb h
    unfold openFile at hOpen
    split_ifs at hOpen with hPhase
    cases hOpen
    exact ⟨b.block, hPhase, hServed⟩

/-- The closing of a source file sets `FileOpen()` of the block, outside a session. -/
theorem served_of_closeFileAt {c d : Connections Address Handle} {handle : Handle}
    (h : closeFileAt handle c = some d) :
    ∃ s, s.rfState ≠ .awaitReq ∧ c.Served d handle s { s with fileOpen := false } := by
  unfold closeFileAt at h
  split at h
  · cases h
  · rename_i b hb
    obtain ⟨t, hClose, hServed⟩ := served_of_serve hb h
    unfold closeFile at hClose
    split_ifs at hClose with hPhase
    cases hClose
    exact ⟨b.block, hPhase, hServed⟩

variable [DecidableEq Address]

/-! Accept -/

theorem acceptConnection_eq_some {c d : Connections Address Handle} {address : Address} {handle : Handle}
    (h : acceptConnection address handle c = some d) :
    c.bindingOf handle = none ∧
      d = { registry := c.registry.register address handle
            bindings := { handle := handle, block := State.reset, connected := true } :: c.bindings } := by
  unfold acceptConnection at h
  split at h <;> cases h
  exact ⟨‹_›, rfl⟩

theorem bindingOf_accept_self (c : Connections Address Handle) (address : Address) (handle : Handle) :
    Connections.bindingOf { registry := c.registry.register address handle
                            bindings := { handle := handle, block := State.reset, connected := true } :: c.bindings }
      handle = some { handle := handle, block := State.reset, connected := true } := by
  simp [Connections.bindingOf]

section
variable {c d : Connections Address Handle} {address : Address} {handle : Handle}

theorem acceptConnection_wf (h : acceptConnection address handle c = some d) (w : c.wf) : d.wf := by
  obtain ⟨hRegistry, hNodup, hHandles, hUp⟩ := (Connections.wf_iff c).1 w
  obtain ⟨hUnbound, rfl⟩ := acceptConnection_eq_some h
  rw [Connections.bindingOf_eq_none] at hUnbound
  have hSub := c.registry.unregister_sublist address
  have hNew : handle ∉ (c.registry.unregister address).map ClientSession.connectionHandle := by
    rw [List.mem_map]
    rintro ⟨e, he, rfl⟩
    obtain ⟨x, hx, hHandle, -⟩ := hUp e (hSub.subset he)
    exact hUnbound (List.mem_map.2 ⟨x, hx, hHandle⟩)
  refine (Connections.wf_iff _).2 ⟨Registry.wf_register hRegistry address handle, List.nodup_cons.2 ⟨hUnbound, hNodup⟩,
    List.nodup_cons.2 ⟨hNew, hHandles.sublist (hSub.map _)⟩, fun e he => ?_⟩
  obtain rfl | he := List.mem_cons.1 he
  · exact ⟨_, List.mem_cons_self, rfl, rfl⟩
  · obtain ⟨x, hx, hx'⟩ := hUp e (hSub.subset he)
    exact ⟨x, List.mem_cons_of_mem _ hx, hx'⟩

/-- An accept binds a block in its reset state to a handle without one, and registers the handle at the address. -/
theorem acceptConnection_spec (h : acceptConnection address handle c = some d) :
    c.blockOf handle = none ∧ d.registry.resolve address = some handle ∧ d.blockFor address = some State.reset ∧
      ∀ b, b ≠ address → d.registry.resolve b = c.registry.resolve b := by
  obtain ⟨hUnbound, rfl⟩ := acceptConnection_eq_some h
  have hResolve := Registry.resolve_register_self c.registry address handle
  refine ⟨?_, hResolve, ?_, fun b hNe => Registry.resolve_register_of_ne _ hNe handle⟩
  · rw [Connections.blockOf, hUnbound]
    rfl
  · rw [Connections.blockFor, hResolve, Option.bind_some, Connections.blockOf, bindingOf_accept_self]
    rfl

theorem acceptConnection_blockOf_of_ne (h : acceptConnection address handle c = some d) {other : Handle}
    (hNe : other ≠ handle) : d.blockOf other = c.blockOf other := by
  obtain ⟨-, rfl⟩ := acceptConnection_eq_some h
  rw [Connections.blockOf, Connections.bindingOf, List.find?_cons_of_neg (by simpa using hNe.symm)]
  rfl

end

/-! The end of a connection -/

/-- Dropping the entry of a handle leaves the addresses that resolve to another handle, or to none. -/
theorem Registry.resolve_dropHandle_of_ne {r : Registry Address Handle} (w : r.wf) {handle : Handle} {a : Address}
    (hNe : r.resolve a ≠ some handle) : (r.dropHandle handle).resolve a = r.resolve a := by
  unfold Registry.dropHandle
  split
  · rename_i e he
    have hHandle : e.connectionHandle = handle := by simpa using List.find?_some he
    refine Registry.resolve_unregister_of_ne r fun hAddress => hNe ?_
    rw [hAddress, Registry.resolve_of_mem w (List.mem_of_find?_eq_some he), hHandle]
  · rfl

/-- Dropping the entry of a handle leaves no entry at the address that resolves to it. -/
theorem Registry.notMem_addresses_dropHandle {r : Registry Address Handle} (w : r.wf)
    (hNodup : (r.map ClientSession.connectionHandle).Nodup) {handle : Handle} {a : Address}
    (hResolve : r.resolve a = some handle) : a ∉ (r.dropHandle handle).addresses := by
  intro h
  obtain ⟨e, he, rfl⟩ := List.mem_map.1 h
  have hEntry := Registry.resolve_of_mem w ((r.dropHandle_sublist handle).subset he)
  exact Registry.dropHandle_ne hNodup handle e he (Option.some.inj (hEntry.symm.trans hResolve))

theorem endConnection_eq_some {c d : Connections Address Handle} {handle : Handle} {how : Closure}
    (h : endConnection handle how c = some d) :
    ∃ b, c.bindingOf handle = some b ∧
      d = Connections.setBinding { c with registry := c.registry.dropHandle handle }
        { b with block := hangUp how b.block, connected := false } := by
  unfold endConnection at h
  split at h
  · cases h
  · split_ifs at h
    cases h
    exact ⟨_, ‹_›, rfl⟩

section
variable {c d : Connections Address Handle} {handle : Handle} {how : Closure}

theorem endConnection_wf (h : endConnection handle how c = some d) (w : c.wf) : d.wf := by
  obtain ⟨hRegistry, hNodup, hHandles, hUp⟩ := (Connections.wf_iff c).1 w
  obtain ⟨b, hb, rfl⟩ := endConnection_eq_some h
  have hSub := c.registry.dropHandle_sublist handle
  refine (Connections.wf_iff _).2 ⟨Registry.wf_of_sublist hSub hRegistry, ?_, hHandles.sublist (hSub.map _),
    fun e he => ?_⟩
  · rwa [Connections.setBinding_handles]
  · have hNe : e.connectionHandle ≠ b.handle :=
      Connections.handle_of_bindingOf hb ▸ Registry.dropHandle_ne hHandles handle e he
    have hStill : Connections.IsUp { c with registry := c.registry.dropHandle handle } e := hUp e (hSub.subset he)
    exact hStill.setBinding_of_ne hNe

theorem endConnection_resolve (h : endConnection handle how c = some d) (w : c.wf) :
    (∀ a, c.registry.resolve a = some handle → a ∉ d.registry.addresses) ∧
      ∀ a, c.registry.resolve a ≠ some handle → d.registry.resolve a = c.registry.resolve a := by
  obtain ⟨hRegistry, -, hHandles, -⟩ := (Connections.wf_iff c).1 w
  obtain ⟨b, -, rfl⟩ := endConnection_eq_some h
  exact ⟨fun a => Registry.notMem_addresses_dropHandle hRegistry hHandles,
    fun a => Registry.resolve_dropHandle_of_ne hRegistry⟩

theorem endConnection_bindingOf (h : endConnection handle how c = some d) :
    ∃ b, c.bindingOf handle = some b ∧
      d.bindingOf handle = some { b with block := hangUp how b.block, connected := false } := by
  obtain ⟨b, hb, rfl⟩ := endConnection_eq_some h
  have hHandle := Connections.handle_of_bindingOf hb
  exact ⟨b, hb, Connections.bindingOf_setBinding_self (by exact hb) _ hHandle⟩

/-- After its end no operation uses the stream of a connection (R182 (c)). -/
theorem endConnection_operateBlock (h : endConnection handle how c = some d) {i : Instr} (hi : usesStream i = true) :
    operateBlock handle i d = none := by
  obtain ⟨b, -, hb⟩ := endConnection_bindingOf h
  simp only [operateBlock, hb, hi]
  rfl

theorem endConnection_blockOf (h : endConnection handle how c = some d) :
    ∃ s, c.blockOf handle = some s ∧ d.blockOf handle = some (hangUp how s) := by
  obtain ⟨b, hb, hb'⟩ := endConnection_bindingOf h
  refine ⟨b.block, ?_, ?_⟩
  · rw [Connections.blockOf, hb]
    rfl
  · rw [Connections.blockOf, hb']
    rfl

theorem endConnection_blockOf_of_ne (h : endConnection handle how c = some d) {other : Handle} (hNe : other ≠ handle) :
    d.blockOf other = c.blockOf other := by
  obtain ⟨b, hb, rfl⟩ := endConnection_eq_some h
  have hHandle := Connections.handle_of_bindingOf hb
  have hBlock := Connections.blockOf_setBinding (c := { c with registry := c.registry.dropHandle handle }) hb
    { b with block := hangUp how b.block, connected := false } hHandle other
  rw [if_neg hNe] at hBlock
  exact hBlock

end

/-- The end of a connection at its block (R130, R131, R157): a waiting session fails, with the cause of the way the end
reaches it. -/
theorem hangUp_spec (how : Closure) (s : State) :
    (s.rfState ≠ .awaitReq → hangUp how s = s) ∧
    (s.rfState = .awaitReq → how = .forced →
      hangUp how s = { s with rfState := .failed, rfCause := .connClosed }) ∧
    (s.rfState = .awaitReq → how = .emptyRead →
      hangUp how s = { s with rfState := .failed, rfCause := .relayShortRead }) := by
  obtain ⟨hOther, e⟩ | ⟨hPhase, e⟩ := hangUp_cases how s
  · exact ⟨fun _ => e, fun h => absurd h hOther, fun h => absurd h hOther⟩
  · refine ⟨fun h => absurd hPhase h, fun _ hHow => ?_, fun _ hHow => ?_⟩ <;> subst hHow <;> exact e

/-! Every event -/

/-- Every event keeps the well-formedness of the connections. -/
theorem connectionStep_wf {e : ConnectionEvent Address Handle} {c d : Connections Address Handle}
    (h : connectionStep e c = some d) (w : c.wf) : d.wf := by
  cases e with
  | accept address handle => exact acceptConnection_wf h w
  | disconnect handle how => exact endConnection_wf h w
  | close handle how => exact endConnection_wf h w
  | fileReady handle contents =>
    obtain ⟨s, -, hServed⟩ := served_of_openFileAt h
    exact hServed.wf w
  | fileUnavailable handle =>
    obtain ⟨s, -, hServed⟩ := served_of_closeFileAt h
    exact hServed.wf w
  | operate handle i =>
    obtain ⟨s, t, -, hServed⟩ := served_of_operateBlock h
    exact hServed.wf w

/-- Every event leaves the blocks of all handles but its own as they are (R174). -/
theorem connectionStep_blockOf_of_ne {e : ConnectionEvent Address Handle} {c d : Connections Address Handle}
    (h : connectionStep e c = some d) {other : Handle} (hNe : other ≠ e.handle) :
    d.blockOf other = c.blockOf other := by
  cases e with
  | accept address handle => exact acceptConnection_blockOf_of_ne h hNe
  | disconnect handle how => exact endConnection_blockOf_of_ne h hNe
  | close handle how => exact endConnection_blockOf_of_ne h hNe
  | fileReady handle contents =>
    obtain ⟨s, -, hServed⟩ := served_of_openFileAt h
    exact hServed.blockOf_of_ne hNe
  | fileUnavailable handle =>
    obtain ⟨s, -, hServed⟩ := served_of_closeFileAt h
    exact hServed.blockOf_of_ne hNe
  | operate handle i =>
    obtain ⟨s, t, -, hServed⟩ := served_of_operateBlock h
    exact hServed.blockOf_of_ne hNe

/-- Settles O60: each kind of event by its own lemmas. -/
theorem eachConnectionHasItsOwnBlock : Obligations.EachConnectionHasItsOwnBlock := by
  unfold Obligations.EachConnectionHasItsOwnBlock
  intro e c d w hStep
  refine ⟨connectionStep_wf hStep w, ?accept, ?ended, ?operate, ?fileReady, ?fileUnavailable,
    fun h => connectionStep_blockOf_of_ne hStep⟩
  case accept =>
    rintro a h rfl
    exact acceptConnection_spec hStep
  case ended =>
    intro h how he
    have hEnd : endConnection h how c = some d := by obtain rfl | rfl := he <;> exact hStep
    obtain ⟨hGone, hStays⟩ := endConnection_resolve hEnd w
    obtain ⟨s, hBefore, hAfter⟩ := endConnection_blockOf hEnd
    exact ⟨hGone, hStays, fun i => endConnection_operateBlock hEnd, s, hangUp how s, hBefore, hAfter, hangUp_spec how s⟩
  case operate =>
    rintro h i rfl
    obtain ⟨s, t, hExec, hServed⟩ := served_of_operateBlock hStep
    exact ⟨hServed.registry_eq, s, t, hServed.blockOf_before, hExec, hServed.blockOf_after⟩
  case fileReady =>
    rintro h contents rfl
    obtain ⟨s, hPhase, hServed⟩ := served_of_openFileAt hStep
    exact ⟨hServed.registry_eq, s, hServed.blockOf_before, hPhase, hServed.blockOf_after⟩
  case fileUnavailable =>
    rintro h rfl
    obtain ⟨s, hPhase, hServed⟩ := served_of_closeFileAt hStep
    exact ⟨hServed.registry_eq, s, hServed.blockOf_before, hPhase, hServed.blockOf_after⟩

end Sys2Proof.Machine
end

section
/-! PROOFS. Delivery: what the host transmits for a request of all chunks (`43_host_sessions.md` section 2, R142 to
R149). -/

namespace Sys2Proof.Machine

/-! Chunks -/

/-- Chunk `k` of an image, counted from 0 (R143). -/
def chunkAt (firmware : Bytes) (k : Nat) : Bytes :=
  (firmware.drop (k * 40)).take 40

theorem lt_totalChunkCount_iff (n k : Nat) : k < totalChunkCount n ↔ k * 40 < n := by
  simp only [totalChunkCount, chunkSize]
  omega

theorem le_totalChunkCount_mul (n : Nat) : n ≤ totalChunkCount n * 40 := by
  simp only [totalChunkCount, chunkSize]
  omega

/-- A chunk of the range has 1 to 40 bytes (R143). -/
theorem chunkAt_length {firmware : Bytes} {k : Nat} (hk : k < totalChunkCount firmware.length) :
    1 ≤ (chunkAt firmware k).length ∧ (chunkAt firmware k).length ≤ 40 := by
  rw [lt_totalChunkCount_iff] at hk
  rw [chunkAt, List.length_take, List.length_drop]
  omega

/-- The first `n` chunks are the first `40 * n` bytes. -/
theorem flatten_chunkAt (firmware : Bytes) (n : Nat) :
    ((List.range n).map (chunkAt firmware)).flatten = firmware.take (n * 40) := by
  induction n with
  | zero => simp
  | succ n ih =>
    rw [List.range_succ, List.map_append, List.flatten_append, ih, Nat.succ_mul, List.take_add]
    simp [chunkAt]

theorem flatten_chunkAt_all (firmware : Bytes) :
    ((List.range (totalChunkCount firmware.length)).map (chunkAt firmware)).flatten = firmware := by
  rw [flatten_chunkAt, List.take_of_length_le (le_totalChunkCount_mul _)]

/-! Reports and datagrams of a session, counted from 0 -/

/-- The report of chunk `k`: its number is `k + 1`, and the last flag is set on the last (R143, R145). -/
def TransferSession.reportAt (h : TransferSession) (k : Nat) : Bytes :=
  let body := reportBody (BitVec.ofNat 15 (k + 1)) (decide (k + 1 = h.totalChunkCount)) (chunkAt h.firmware k)
  body ++ be16 (crc16 body)

/-- The counter after `j` more reports (R148). -/
def TransferSession.seqAfter (h : TransferSession) (j : Nat) : Byte :=
  if h.seqAdvance = .perSession then h.seq else BitVec.ofNat 8 (h.seq.toNat + j)

/-- The datagram of chunk `k`, the `j`-th one from now (R72, R145). -/
def TransferSession.datagramAt (h : TransferSession) (k j : Nat) : Bytes :=
  [0x23, 0x02, h.flags0, h.flags1, h.seqAfter j, 0x00, 0x00] ++ h.reportAt k

theorem TransferSession.seqAfter_zero (h : TransferSession) : h.seqAfter 0 = h.seq := by
  simp [TransferSession.seqAfter]

/-- Transmitting a datagram advances the counter by one report (R148). -/
theorem TransferSession.transmit_seqAfter (h : TransferSession) (d : Bytes) (j : Nat) :
    (h.transmit d).seqAfter j = h.seqAfter (j + 1) := by
  have hNext : BitVec.ofNat 8 ((h.seq.toNat + 1) % 256 + j) = BitVec.ofNat 8 (h.seq.toNat + (j + 1)) := by
    apply BitVec.eq_of_toNat_eq
    rw [BitVec.toNat_ofNat, BitVec.toNat_ofNat]
    omega
  cases hAdvance : h.seqAdvance <;>
    simp [TransferSession.seqAfter, seqAfterReport, hAdvance, nextSeq_eq, hNext]

theorem TransferSession.transmit_reportAt (h : TransferSession) (d : Bytes) (k : Nat) :
    (h.transmit d).reportAt k = h.reportAt k := rfl

theorem TransferSession.transmit_datagramAt (h : TransferSession) (d : Bytes) (k j : Nat) :
    (h.transmit d).datagramAt k j = h.datagramAt k (j + 1) := by
  rw [TransferSession.datagramAt, TransferSession.transmit_seqAfter]
  rfl

/-- One pass of the loop for chunk `k`: its report, and its datagram as the next one (R145). -/
theorem sendReport_chunkAt {h : TransferSession} (w : h.wf) {k : Nat} (hk : k < h.totalChunkCount)
    (hMax : h.totalChunkCount < 32768) (s : State) :
    ∃ c, sendReport h (k + 1) s =
      some (h.transmit (h.datagramAt k 0),
        { s with crc := c, outlog := s.outlog ++ [h.reportAt k, h.datagramAt k 0] },
        decide (k + 1 = h.totalChunkCount)) := by
  have hChunk : h.chunk (k + 1) = some (chunkAt h.firmware k) :=
    TransferSession.chunk_eq w (Nat.le_add_left 1 k) hk
  obtain ⟨-, hTotal⟩ := id w
  obtain ⟨-, hLength⟩ := chunkAt_length (hTotal ▸ hk)
  have hLast : decide (h.totalChunkCount ≤ k + 1) = decide (k + 1 = h.totalChunkCount) :=
    decide_eq_decide.2 ⟨fun hGe => Nat.le_antisymm hk hGe, fun hEq => hEq.ge⟩
  have hSend := sendReport_eq hChunk (by omega) hLength s
  simp only [hLast, envelopeFrame_eq, ← h.seqAfter_zero] at hSend
  exact ⟨_, hSend⟩

/-! The loop -/

/-- From chunk `k` on, with `asked` chunk numbers asked for, `n` reports are transmitted, and the delivery ends as `how`
says. -/
def Delivers (h : TransferSession) (k asked n : Nat) (s : State) (how : Delivery) : Prop :=
  ∃ (h' : TransferSession) (c : CrcWord),
    deliverFrom h (k + 1) s asked =
      some (h', { s with
        crc := c
        outlog := s.outlog ++ ((List.range n).map fun j => [h.reportAt (k + j), h.datagramAt (k + j) j]).flatten },
        how) ∧
      h'.sent = h.sent ++ (List.range n).map (fun j => h.datagramAt (k + j) j) ∧ h'.wf ∧ h'.firmware = h.firmware

/-- The loop ends at the report of the last chunk (R145). -/
theorem delivers_last {h : TransferSession} (w : h.wf) {k : Nat} (hk : k + 1 = h.totalChunkCount)
    (hMax : h.totalChunkCount < 32768) (asked : Nat) (s : State) : Delivers h k (asked + 1) 1 s .lastSent := by
  obtain ⟨c, hSend⟩ := sendReport_chunkAt w (Nat.lt_of_succ_le hk.le) hMax s
  rw [decide_eq_true hk] at hSend
  refine ⟨h.transmit (h.datagramAt k 0), c, ?_, ?_, w, rfl⟩
  · simp [deliverFrom, hSend]
  · simp

/-- The loop ends at a first report that is not acknowledged as required (R149). -/
theorem delivers_unacknowledged {h : TransferSession} (w : h.wf) {k : Nat} (hk : k + 1 < h.totalChunkCount)
    (hMax : h.totalChunkCount < 32768) (hStops : h.goesOn = false) (asked : Nat) (s : State) :
    Delivers h k (asked + 1) 1 s .unacknowledged := by
  obtain ⟨c, hSend⟩ := sendReport_chunkAt w (Nat.lt_of_succ_lt hk) hMax s
  rw [decide_eq_false hk.ne] at hSend
  refine ⟨h.transmit (h.datagramAt k 0), c, ?_, ?_, w, rfl⟩
  · simp [deliverFrom, hSend, hStops]
  · simp

/-- The loop goes on to the next chunk after a report that is not the last (R145). -/
theorem Delivers.cons {h : TransferSession} (w : h.wf) {k : Nat} (hk : k + 1 < h.totalChunkCount)
    (hMax : h.totalChunkCount < 32768) (hGoes : h.goesOn = true) {asked n : Nat} {s : State} {how : Delivery}
    (hNext : ∀ t, Delivers (h.transmit (h.datagramAt k 0)) (k + 1) asked n t how) :
    Delivers h k (asked + 1) (n + 1) s how := by
  obtain ⟨c, hSend⟩ := sendReport_chunkAt w (Nat.lt_of_succ_lt hk) hMax s
  rw [decide_eq_false hk.ne] at hSend
  obtain ⟨h', c', hLoop, hSent, w', hFirmware⟩ :=
    hNext { s with crc := c, outlog := s.outlog ++ [h.reportAt k, h.datagramAt k 0] }
  have hShift : ∀ j, k + 1 + j = k + (j + 1) := fun j => by omega
  simp only [TransferSession.transmit_reportAt, TransferSession.transmit_datagramAt, hShift] at hLoop hSent
  refine ⟨h', c', ?_, ?_, w', hFirmware⟩
  · rw [deliverFrom, hSend]
    simp only [hGoes, if_true, hLoop, List.range_succ_eq_map, List.map_cons, List.map_map, List.flatten_cons,
      List.append_assoc]
    rfl
  · rw [hSent, TransferSession.transmit_sent, List.range_succ_eq_map, List.map_cons, List.map_map, List.append_assoc]
    rfl

/-- A session that goes on transmits a report for each chunk from `k` to the last (R145). -/
theorem delivers_all (n : Nat) : ∀ (h : TransferSession) (k : Nat) (s : State), h.wf →
    h.totalChunkCount < 32768 → k + (n + 1) = h.totalChunkCount → h.goesOn = true →
      Delivers h k (n + 1) (n + 1) s .lastSent := by
  induction n with
  | zero =>
    intro h k s w hMax hk _
    exact delivers_last w hk hMax 0 s
  | succ n ih =>
    intro h k s w hMax hk hGoes
    refine Delivers.cons w (by omega) hMax hGoes fun t => ?_
    refine ih _ (k + 1) t (TransferSession.transmit_wf w _) hMax ?_ (TransferSession.transmit_goesOn h _)
    rw [TransferSession.transmit_totalChunkCount]
    omega

/-- How many reports a request for all chunks transmits: all, or one if its acknowledgment is awaited and does not
arrive (R149). -/
theorem delivers_count {h : TransferSession} (w : h.wf) (hPos : 0 < h.totalChunkCount)
    (hMax : h.totalChunkCount < 32768) {count : Nat}
    (hCount : count = if h.sent = [] ∧ mayProceed h.ackArrives = false then 1 else h.totalChunkCount)
    (s : State) :
    Delivers h 0 h.totalChunkCount count s (if count = h.totalChunkCount then .lastSent else .unacknowledged) := by
  obtain ⟨n, hn⟩ := Nat.exists_eq_add_one_of_ne_zero hPos.ne'
  cases hGoes : h.goesOn with
  | true =>
    have hAll : ¬ (h.sent = [] ∧ mayProceed h.ackArrives = false) := by
      rw [← h.goesOn_eq_false, hGoes]
      decide
    rw [if_neg hAll] at hCount
    subst hCount
    rw [if_pos rfl, hn]
    exact delivers_all n h 0 s w hMax (by omega) hGoes
  | false =>
    rw [if_pos (h.goesOn_eq_false.1 hGoes)] at hCount
    subst hCount
    by_cases hOnly : 1 = h.totalChunkCount
    · rw [if_pos hOnly, hn]
      exact delivers_last w hOnly hMax n s
    · rw [if_neg hOnly, hn]
      exact delivers_unacknowledged w (by omega) hMax hGoes n s

/-! The lists of the statement -/

theorem mapIdx_map_range {α β : Type} (n : Nat) (f : Nat → α) (g : Nat → α → β) :
    ((List.range n).map f).mapIdx g = (List.range n).map fun k => g k (f k) := by
  apply List.ext_getElem
  · simp
  · intro k h1 h2
    simp

theorem zipWith_map_range {α β γ : Type} (n : Nat) (f : Nat → α) (g : Nat → β) (op : α → β → γ) :
    List.zipWith op ((List.range n).map f) ((List.range n).map g) = (List.range n).map fun k => op (f k) (g k) := by
  rw [List.zipWith_map, List.zipWith_self]

/-- Settles O58: the lists of the statement are the chunks, reports and datagrams counted from 0, which the loop
delivers. -/
theorem deliveringAllChunksFlagsOnlyTheLast : Obligations.DeliveringAllChunksFlagsOnlyTheLast := by
  unfold Obligations.DeliveringAllChunksFlagsOnlyTheLast
  intro h s w hImage hMax count chunks reports datagrams hCount hChunks hReports hDatagrams
  obtain ⟨-, hTotal⟩ := id w
  have hPos : 0 < h.totalChunkCount := by
    rw [hTotal, lt_totalChunkCount_iff, Nat.zero_mul]
    exact List.length_pos_iff.2 hImage
  have hLe : count ≤ h.totalChunkCount := by
    rw [hCount]
    split_ifs <;> omega
  replace hChunks : chunks = (List.range count).map (chunkAt h.firmware) := hChunks
  replace hReports : reports = (List.range count).map h.reportAt := by
    rw [hReports, hChunks, mapIdx_map_range]
    rfl
  replace hDatagrams : datagrams = (List.range count).map fun k => h.datagramAt k k := by
    rw [hDatagrams, hReports, mapIdx_map_range]
    rfl
  refine ⟨fun b hb => ?_, fun hAll => ?_, ?_⟩
  · rw [hChunks] at hb
    obtain ⟨k, hk, rfl⟩ := List.mem_map.1 hb
    exact chunkAt_length (hTotal ▸ (List.mem_range.1 hk).trans_le hLe)
  · rw [hChunks, hAll, hTotal, flatten_chunkAt_all]
  · obtain ⟨h', c, hLoop, hSent, hRest⟩ := delivers_count w hPos hMax hCount s
    simp only [Nat.zero_add] at hLoop hSent
    refine ⟨h', c, ?_, ?_, hRest⟩
    · rw [hReports, hDatagrams, zipWith_map_range]
      exact hLoop
    · rw [hDatagrams]
      exact hSent

end Sys2Proof.Machine
end
